-- ==== Sys2Proof/Word.lean ====
section
/-! DEFINITION. The bit-vector types of the core (00_scope.md R6, R7, R12): every value is an unsigned bit vector
of a stated width, bit 0 the least significant. -/

namespace Sys2Proof

/-- `u32`: the width `W` of the CRC Register, the divisor, a table entry and a result (R6). -/
abbrev Word := BitVec 32

/-- `u8`: an input byte or a table index, `INDEX_BITS` wide (R6, R12). -/
abbrev Byte := BitVec 8

/-- A command word, `CMD_BITS` = 40 wide (R7, R72). -/
abbrev CmdWord := BitVec 40

/-- A response word, `RSP_BITS` = 40 wide (R7, R76). -/
abbrev RspWord := BitVec 40

end Sys2Proof
end

