-- ==== Sys2Proof/Syntax.lean ====
section
/-! DEFINITION. The command set CRC32CORE version 1 as syntax: one constructor of `Instr` per row of
spec/opcode_table.json (30_encoding.md R79, R80). -/

namespace Sys2Proof

/-- Orientation, "a closed enumeration" of two values (R160, R161). -/
inductive Orientation where
  | reflected
  | normal
deriving DecidableEq, Repr, Inhabited

/-- The two failure kinds of the Byte Source (R183). -/
inductive FailKind where
  | notFound
  | ioError
deriving DecidableEq, Repr, Inhabited

/-- A Polynomial Config: the pair of a divisor, any `u32`, and an orientation (R19).  A slot's tag is one (R28). -/
structure PolyConfig where
  divisor     : Word
  orientation : Orientation
deriving DecidableEq, Repr, Inhabited

/-- The commands.  A word of a legal opcode with a must-be-zero field set selects no row and is no `Instr`:
`decode` rejects it by name. -/
inductive Instr where
  /-- `BUILD o, d` (R109): `OP = 1`. -/
  | build (o : Orientation) (d : Word)
  /-- `RDTAB i` (R115): `OP = 2`. -/
  | rdtab (i : Byte)
  /-- `START o` (R131): `OP = 3`. -/
  | start (o : Orientation)
  /-- `BYTE b` (R133): `OP = 4`. -/
  | byte (b : Byte)
  /-- `FINISH` (R140): `OP = 5`. -/
  | finish
  /-- `FAIL k` (R181): `OP = 6`. -/
  | fail (k : FailKind)
  /-- `RDSR STATUS` (R184): `OP = 7`, register 0. -/
  | rdsrStatus
  /-- `RDSR DIVISOR` (R184): `OP = 7`, register 1. -/
  | rdsrDivisor
  /-- `RDSR GENCOUNT` (R184): `OP = 7`, register 2. -/
  | rdsrGencount
  /-- Reserved opcode 0 (R185), with the 36 bits below the opcode, which nothing reads. -/
  | reservedOp0 (rest : BitVec 36)
  /-- Reserved opcodes 8 to 15 (R185): the opcode and the 36 bits below it, which nothing reads. -/
  | reservedOp8F (op : BitVec 4) (rest : BitVec 36)
deriving DecidableEq, Repr

end Sys2Proof
end

