-- ==== Sys2Proof/WellFormed.lean ====
section
/-! DEFINITION. Which terms of `Instr` stand for a command word.  The operand types carry every bound of
30_encoding.md R81 (a byte is 8 bits, an orientation and a failure kind one bit) but one: the opcode of a
`reservedOp8F` is one of 8 to 15 (R79, R185). -/

namespace Sys2Proof

/-- The one check that an operand's type does not make: `RESERVED.OP8_F` carries an opcode whose top bit is 1. -/
def Instr.wellFormed : Instr → Bool
  | .build _ _ => true
  | .rdtab _ => true
  | .start _ => true
  | .byte _ => true
  | .finish => true
  | .fail _ => true
  | .rdsrStatus => true
  | .rdsrDivisor => true
  | .rdsrGencount => true
  | .reservedOp0 _ => true
  | .reservedOp8F op _ => decide (8 ≤ op.toNat)

end Sys2Proof
end

