-- ==== Sys2Proof/Decode.lean ====
section
/-! DEFINITION. Decoding a 40-bit command word and encoding an instruction (30_encoding.md R72, R79 to R83).
There is one command length and one format (R84), and the word travels as one field, so no byte order arises (R54). -/

namespace Sys2Proof

/-! ### The one format of R72 -/

/-- `OP`, bits 39:36. -/
def opField (w : CmdWord) : BitVec 4 := w.extractLsb' 36 4

/-- `RSV`, bits 35:33. -/
def rsvField (w : CmdWord) : BitVec 3 := w.extractLsb' 33 3

/-- `O`, bit 32. -/
def oField (w : CmdWord) : BitVec 1 := w.extractLsb' 32 1

/-- `DATA`, bits 31:0. -/
def dataField (w : CmdWord) : Word := w.extractLsb' 0 32

/-- All the bits below the opcode, which a reserved opcode leaves unread (R185). -/
def restField (w : CmdWord) : BitVec 36 := w.extractLsb' 0 36

/-! ### One-bit operands (R160, R181) -/

/-- 0 = Reflected, 1 = Normal (R160). -/
def Orientation.ofBit (b : BitVec 1) : Orientation := if b = 0#1 then .reflected else .normal

/-- The one-bit encoding of an orientation wherever it is stored or carried (R160). -/
def Orientation.bit : Orientation → BitVec 1
  | .reflected => 0#1
  | .normal => 1#1

/-- 0 = NotFound, 1 = IOError (R181). -/
def FailKind.ofBit (b : BitVec 1) : FailKind := if b = 0#1 then .notFound else .ioError

/-- The failure kind as `DATA[0]` (R181). -/
def FailKind.bit : FailKind → BitVec 1
  | .notFound => 0#1
  | .ioError => 1#1

/-! ### Field use per opcode (R80) -/

/-- Whether an opcode uses `O` as an operand; where it does not, `O` must be 0 (R80). -/
def usesOrientation (op : BitVec 4) : Bool := op == 0x1#4 || op == 0x3#4

/-- The bits of `DATA` an opcode uses as an operand; every other bit of `DATA` must be 0 (R80). -/
def dataOperandMask (op : BitVec 4) : Word :=
  if op = 0x1#4 then 0xFFFFFFFF#32        -- BUILD: the divisor
  else if op = 0x2#4 then 0x000000FF#32   -- RDTAB: the index
  else if op = 0x4#4 then 0x000000FF#32   -- BYTE: the byte
  else if op = 0x6#4 then 0x00000001#32   -- FAIL: the kind
  else if op = 0x7#4 then 0x00000003#32   -- RDSR: the register number
  else 0x00000000#32                      -- START, FINISH

/-- Why a word of a legal opcode selects no row (R82). -/
inductive Reject where
  /-- `RSV` is not 0. -/
  | reservedBits
  /-- `O` is not 0 in a word whose opcode does not use it. -/
  | orientationNotZero
  /-- A bit of `DATA` that the opcode does not use is not 0. -/
  | dataNotZero
  /-- `RDSR` with register number 3. -/
  | reservedRegister
deriving DecidableEq, Repr

/-- What a command word is: an instruction, or a word rejected by name. -/
inductive Decoded where
  | instr (i : Instr)
  | reject (r : Reject)
deriving DecidableEq, Repr

/-- The operands of a word of a legal opcode whose must-be-zero fields are 0 (R81): none is sign-extended, scaled or
shifted. -/
def decodeOperands (w : CmdWord) : Decoded :=
  if opField w = 0x1#4 then .instr (.build (.ofBit (oField w)) (dataField w))
  else if opField w = 0x2#4 then .instr (.rdtab ((dataField w).extractLsb' 0 8))
  else if opField w = 0x3#4 then .instr (.start (.ofBit (oField w)))
  else if opField w = 0x4#4 then .instr (.byte ((dataField w).extractLsb' 0 8))
  else if opField w = 0x5#4 then .instr .finish
  else if opField w = 0x6#4 then .instr (.fail (.ofBit ((dataField w).extractLsb' 0 1)))
  else if (dataField w).extractLsb' 0 2 = 0#2 then .instr .rdsrStatus
  else if (dataField w).extractLsb' 0 2 = 1#2 then .instr .rdsrDivisor
  else if (dataField w).extractLsb' 0 2 = 2#2 then .instr .rdsrGencount
  else .reject .reservedRegister

/-- Decoding is total (R83): every 40-bit word is an instruction or is rejected by name.  The reserved opcodes have
rows of their own in the table, whatever their other bits (R185). -/
def decode (w : CmdWord) : Decoded :=
  if opField w = 0x0#4 then .instr (.reservedOp0 (restField w))
  else if 8 ≤ (opField w).toNat then .instr (.reservedOp8F (opField w) (restField w))
  else if rsvField w ≠ 0#3 then .reject .reservedBits
  else if usesOrientation (opField w) = false ∧ oField w ≠ 0#1 then .reject .orientationNotZero
  else if dataField w &&& ~~~ dataOperandMask (opField w) ≠ 0#32 then .reject .dataNotZero
  else decodeOperands w

/-! ### The encoder -/

/-- A word from its four fields (R72). -/
def packWord (op : BitVec 4) (o : BitVec 1) (data : Word) : CmdWord := op ++ 0#3 ++ o ++ data

/-- The word of an instruction (R85). -/
def encode : Instr → CmdWord
  | .build o d => packWord 0x1#4 o.bit d
  | .rdtab i => packWord 0x2#4 0#1 (0#24 ++ i)
  | .start o => packWord 0x3#4 o.bit 0#32
  | .byte b => packWord 0x4#4 0#1 (0#24 ++ b)
  | .finish => packWord 0x5#4 0#1 0#32
  | .fail k => packWord 0x6#4 0#1 (0#31 ++ k.bit)
  | .rdsrStatus => packWord 0x7#4 0#1 0#32
  | .rdsrDivisor => packWord 0x7#4 0#1 1#32
  | .rdsrGencount => packWord 0x7#4 0#1 2#32
  | .reservedOp0 rest => 0x0#4 ++ rest
  | .reservedOp8F op rest => op ++ rest

/-! ### The opcode table as match and mask pairs (R83, spec/opcode_table.json) -/

/-- A row of the table: a word `w` selects it when `w &&& mask = value`. -/
structure OpcodeRow where
  mnemonic : String
  value    : CmdWord
  mask     : CmdWord
deriving DecidableEq, Repr

/-- Whether a word selects a row (R83). -/
def OpcodeRow.selects (r : OpcodeRow) (w : CmdWord) : Bool := w &&& r.mask == r.value

/-- The row of an instruction. -/
def Instr.row : Instr → OpcodeRow
  | .build _ _ => ⟨"BUILD", 0x1000000000#40, 0xFE00000000#40⟩
  | .rdtab _ => ⟨"RDTAB", 0x2000000000#40, 0xFFFFFFFF00#40⟩
  | .start _ => ⟨"START", 0x3000000000#40, 0xFEFFFFFFFF#40⟩
  | .byte _ => ⟨"BYTE", 0x4000000000#40, 0xFFFFFFFF00#40⟩
  | .finish => ⟨"FINISH", 0x5000000000#40, 0xFFFFFFFFFF#40⟩
  | .fail _ => ⟨"FAIL", 0x6000000000#40, 0xFFFFFFFFFE#40⟩
  | .rdsrStatus => ⟨"RDSR_STATUS", 0x7000000000#40, 0xFFFFFFFFFF#40⟩
  | .rdsrDivisor => ⟨"RDSR_DIVISOR", 0x7000000001#40, 0xFFFFFFFFFF#40⟩
  | .rdsrGencount => ⟨"RDSR_GENCOUNT", 0x7000000002#40, 0xFFFFFFFFFF#40⟩
  | .reservedOp0 _ => ⟨"RESERVED.OP0", 0x0000000000#40, 0xF000000000#40⟩
  | .reservedOp8F _ _ => ⟨"RESERVED.OP8_F", 0x8000000000#40, 0x8000000000#40⟩

/-- The eleven rows, in the table's order. -/
def opcodeTable : List OpcodeRow :=
  [(Instr.build .reflected 0#32).row, (Instr.rdtab 0#8).row, (Instr.start .reflected).row, (Instr.byte 0#8).row,
   Instr.finish.row, (Instr.fail .notFound).row, Instr.rdsrStatus.row, Instr.rdsrDivisor.row, Instr.rdsrGencount.row,
   (Instr.reservedOp0 0#36).row, (Instr.reservedOp8F 8#4 0#36).row]

/-! ### Words numbered as the opcode table numbers them -/

/-- The command word whose low `nbits` bits are `w`, every bit above them 0. -/
def tableWord (nbits w : Nat) : CmdWord := BitVec.ofNat 40 (w % 2 ^ nbits)

/-- The instruction the decoder reads from an instruction whose bits are `w`, numbered as the table numbers them:
the table numbers a command word as R72 does, bit 0 the least significant of its 40 bits. -/
def decodeTableWord (nbits w : Nat) : Option Instr :=
  match decode (tableWord nbits w) with
  | .instr i => some i
  | .reject _ => none

end Sys2Proof
end

