-- ==== Sys2Proof/Machine/Operands.lean ====
section
/-! DEFINITION. The operands of the data path: extension of a byte (00_scope.md R14) and the Orientation Dispatcher
(42_orientation_dispatcher.md R162, R163), which has no state of its own (R165). -/

namespace Sys2Proof.Machine

/-- `zext_32` (R14): the byte in bits 7..0, zeros in bits 31..8. -/
def zext32 (b : Byte) : Word := b.setWidth 32

/-! ### What the orientation selects in the Table Generator (R162) -/

/-- Where the candidate byte is loaded: bits 7..0 of `DREG`, or bits 31..24. -/
def loadByte : Orientation → Byte → Word
  | .reflected, b => zext32 b
  | .normal, b => zext32 b <<< 24

/-- Which bit a round tests, before its shift: bit 0 or bit 31. -/
def testedBit : Orientation → Word → Bool
  | .reflected, r => r.getLsbD 0
  | .normal, r => r.getLsbD 31

/-- A round's shift: right by 1 or left by 1. -/
def shiftOne : Orientation → Word → Word
  | .reflected, r => r >>> 1
  | .normal, r => r <<< 1

/-! ### What the orientation selects in the Accumulator (R163) -/

/-- Which byte of the register meets the input byte, moved to bits 7..0 (with, in Reflected mode, the rest of the
register above it, which the mask of R134 drops). -/
def indexTerm : Orientation → Word → Word
  | .reflected, r => r
  | .normal, r => r >>> 24

/-- The register's shift: right by 8 or left by 8. -/
def shiftByte : Orientation → Word → Word
  | .reflected, r => r >>> 8
  | .normal, r => r <<< 8

end Sys2Proof.Machine
end

