-- ==== Sys2Proof/Config.lean ====
section
/-! DEFINITION. What an implementation fixes (00_scope.md R7) and the free values the spec leaves open
(93_implementation_defined.md U1, U2). -/

namespace Sys2Proof

/-- The reference value of `TABLE_SLOTS`, the one open parameter (R7).  Only `State.reset` uses it: every operation
takes the number of slots from the state itself (the length of its list of slots), so that a statement over all
states holds for every value of the parameter.  Log entry 2. -/
def Config.tableSlots : Nat := 2

/-- FREE VALUE (U1): what `REG` gives when it is read while it holds no value.  No run reaches such a read (R207).
Log entry 3. -/
opaque Config.valuelessReg : Word

/-- FREE VALUE (U2): what entry `i` of slot `s` gives when it is read while it holds no value.  No run reaches such a
read (R207).  Log entry 3. -/
opaque Config.valuelessEntry (s : Nat) (i : Byte) : Word

/-- FREE VALUE (U2): what the tag of slot `s` gives when it is read while it holds no value.  No run reaches such a
read (R207).  Log entry 3. -/
opaque Config.valuelessTag (s : Nat) : PolyConfig

end Sys2Proof
end

