-- ==== Sys2Proof/Machine/State.lean ====
section
/-! DEFINITION. The state of the core (10_state.md R20, complete), its ports at transaction level (30_encoding.md
R70) and what the host does with them.  Plain data throughout. -/

namespace Sys2Proof.Machine

/-- `PHASE` (R26): `IDLE`, no computation in progress; `ACTIVE`, a computation in progress. -/
inductive Phase where
  | idle
  | active
deriving DecidableEq, Repr, Inhabited

/-- The status codes of a response (R200), exactly six values (U7). -/
inductive Status where
  | ok
  | errNotFound
  | errIo
  | errIllegal
  | errSeq
  | errNoTable
deriving DecidableEq, Repr, Inhabited

/-- A response: its status, and its payload when `V = 1`, absent when `V = 0` (R16, R76, R77). -/
structure Response where
  status  : Status
  payload : Option Word
deriving DecidableEq, Repr

/-- `DREG`, `IDX` and `RND`: the division working register and the two counters of a generation run (R22, R23). -/
structure GenRun where
  dreg : Word
  idx  : Byte
  rnd  : BitVec 3
deriving DecidableEq, Repr

/-- One slot of the table store (R28).  The tag and an entry are absent while they hold no value (R40). -/
structure Slot where
  valid   : Bool
  tag     : Option PolyConfig
  entries : Vector (Option Word) 256
deriving DecidableEq, Repr

/-- A slot that holds nothing, as reset leaves every slot (R39). -/
def Slot.empty : Slot := { valid := false, tag := none, entries := Vector.replicate 256 none }

/-- What the host does at the core's ports, in the order it does it (R70, R71, R73, R231).  DESIGN CHOICE, log entry 16:
no act withdraws an offered word. -/
inductive HostAct where
  /-- Raise `cmd_valid` with this word on `cmd`, and hold both until the word is accepted.  R71 asks the host to hold `cmd`
  stable while `cmd_valid = 1`; that the host also keeps `cmd_valid` at 1 until acceptance is the model's choice (log
  entry 16). -/
  | offer (word : CmdWord)
  /-- Raise `rsp_ready`: take the response the core offers, if it offers one. -/
  | take
  /-- Raise `rst` for a clock edge. -/
  | reset
deriving DecidableEq, Repr

/-- The whole machine.  The first eight fields are the core's state (R20); the next two are its ports; the last two
are the model's own record of the host (what it will do, what it has observed: R9, R10). -/
structure State where
  /-- `REG`, the CRC Register (R21): absent while it holds no value (R40). -/
  reg       : Option Word
  /-- `DREG`, `IDX`, `RND` (R22, R23): absent between commands. -/
  gen       : Option GenRun
  /-- `PHASE` (R26). -/
  phase     : Phase
  /-- `ACC_ORIENT` (R25). -/
  accOrient : Orientation
  /-- `SLOT[0]`, `SLOT[1]`, …: the table store (R28).  Its length is `TABLE_SLOTS` (R7) and never changes. -/
  slots     : List Slot
  /-- `CUR`, the number of the current slot (R30). -/
  cur       : Nat
  /-- `FILL_PTR`, the slot the next generation run fills (R31). -/
  fillPtr   : Nat
  /-- `GEN_COUNT` (R32). -/
  genCount  : Word
  /-- `cmd_valid` and `cmd`: the word the host offers and holds, not accepted yet (R70, R71). -/
  cmdPort   : Option CmdWord
  /-- `rsp_valid` and `rsp`: the response the core offers and holds, not delivered yet (R70, R73). -/
  rspPort   : Option Response
  /-- What the host will do at the ports, first things first. -/
  host      : List HostAct
  /-- The responses delivered so far, oldest first: all a host can observe of the core (R10). -/
  observed  : List Response
deriving DecidableEq, Repr

/-- Why the machine stops with a fault. -/
inductive Fault where
  /-- Raised by `BUILD` alone, when `FILL_PTR` names a slot outside `0 .. TABLE_SLOTS - 1`, which does not exist (R28).
  Safe: no state a run reaches has such a `FILL_PTR` (R31), and nothing is concluded about one that does. -/
  | noSuchSlot (slot : Nat)
deriving DecidableEq, Repr

/-- Why a step has no meaning. -/
inductive Refusal where
  /-- An instruction with no meaning in this model.  No arm of `exec` raises it.  Safe. -/
  | notModelled (mnemonic : String)
  /-- Raised by the host's side of a step, never by an instruction: the host offers another word while it still holds
  one that is not accepted, against its duty (R71, R245), which U14 puts outside the model.  Safe: nothing is
  concluded about such a host. -/
  | commandChanged (held offered : CmdWord)
deriving DecidableEq, Repr

/-- The reset state of a core with `n` slots (R39), its ports quiet and nothing observed. -/
def State.resetWith (n : Nat) : State :=
  { reg := none
    gen := none
    phase := .idle
    accOrient := .reflected
    slots := List.replicate n Slot.empty
    cur := 0
    fillPtr := 0
    genCount := 0
    cmdPort := none
    rspPort := none
    host := []
    observed := [] }

/-- The machine right after reset (R39), with the reference number of slots (R7). -/
def State.reset : State := State.resetWith Config.tableSlots

end Sys2Proof.Machine
end

