-- ==== Sys2Proof/Machine/Ops.lean ====
section
/-! DEFINITION. The named operations over the state: registers, the table store, responses, refusing a command (the
core's whole counterpart of an exception, 60_exceptions.md R211, R212) and the generation run (R108). -/

namespace Sys2Proof.Machine

/-! ### Responses and refusals -/

/-- `respond(ST, payload)` (R16): the core offers this response. -/
def State.respond (st : Status) (v : Option Word) (s : State) : State := { s with rspPort := some ⟨st, v⟩ }

/-- The command did what its rule says: `respond(OK, payload)`. -/
def complete (v : Option Word) (s : State) : Host.Outcome State Fault Refusal := .next (s.respond .ok v)

/-- A protocol refusal (R211): nothing is saved, nothing changes, and control goes nowhere; the response is the whole
report (R208), and there is nothing to return from (R212). -/
def refuse (st : Status) (s : State) : Host.Outcome State Fault Refusal := .next (s.respond st none)

/-! ### The Accumulator's registers -/

/-- Reading `REG`; a free value while it holds none (U1). -/
def State.regValue (s : State) : Word := s.reg.getD Config.valuelessReg

/-- `REG <- v`. -/
def State.writeReg (v : Word) (s : State) : State := { s with reg := some v }

/-- Opening a computation: `REG <- v; ACC_ORIENT <- o; PHASE <- ACTIVE` (R131). -/
def State.openComputation (v : Word) (o : Orientation) (s : State) : State :=
  { s with reg := some v, accOrient := o, phase := .active }

/-- Ending a computation: `PHASE <- IDLE`, and `REG` holds no value any more (R40, R140, R181). -/
def State.endComputation (s : State) : State := { s with phase := .idle, reg := none }

/-! ### The table store -/

/-- `SLOT[k].VALID`; a slot that does not exist is not valid. -/
def State.slotValid (s : State) (k : Nat) : Bool :=
  match s.slots[k]? with
  | some sl => sl.valid
  | none => false

/-- The tag of slot `k`; a free value while it holds none (U2). -/
def State.slotTag (s : State) (k : Nat) : PolyConfig :=
  match s.slots[k]? with
  | some sl => sl.tag.getD (Config.valuelessTag k)
  | none => Config.valuelessTag k

/-- The entry of a slot at an index: every 8-bit index is implemented (R53). -/
def Slot.entry (sl : Slot) (i : Byte) : Option Word := sl.entries[i.toNat]'i.isLt

/-- `TabRead(k, i)` (R15): one whole entry (R52); a free value while it holds none (U2). -/
def State.tabRead (s : State) (k : Nat) (i : Byte) : Word :=
  match s.slots[k]? with
  | some sl => (sl.entry i).getD (Config.valuelessEntry k i)
  | none => Config.valuelessEntry k i

/-- Writing one whole entry of a slot (R52). -/
def Slot.setEntry (i : Byte) (v : Word) (sl : Slot) : Slot :=
  { sl with entries := sl.entries.set i.toNat (some v) i.isLt }

/-- Changing slot `k` and no other. -/
def State.modifySlot (k : Nat) (f : Slot → Slot) (s : State) : State := { s with slots := s.slots.modify k f }

/-- `TabWrite(k, i, v)` (R15). -/
def State.tabWrite (k : Nat) (i : Byte) (v : Word) (s : State) : State := s.modifySlot k (Slot.setEntry i v)

/-- The current table exists exactly when `SLOT[CUR].VALID = 1` (R30). -/
def State.hasTable (s : State) : Bool := s.slotValid s.cur

/-- The hit test of `BUILD` (R109): the number of a valid slot whose tag has these 32 divisor bits and this
orientation, if there is one (by R33 at most one). -/
def State.findTag (c : PolyConfig) (s : State) : Option Nat :=
  (List.range s.slots.length).find? fun k => s.slotValid k && decide (s.slotTag k = c)

/-- `CUR <- k`. -/
def State.selectSlot (k : Nat) (s : State) : State := { s with cur := k }

/-- `min(GEN_COUNT + 1, 0xFFFFFFFF)` (R32). -/
def bumpCount (g : Word) : Word := BitVec.ofNat 32 (min (g.toNat + 1) 0xFFFFFFFF)

/-- After a generation run into slot `k`: `CUR <- k`, `FILL_PTR` moves on round-robin, `GEN_COUNT` counts the run
(R109, R31, R32). -/
def State.countRun (k : Nat) (s : State) : State :=
  { s with cur := k, fillPtr := (s.fillPtr + 1) % s.slots.length, genCount := bumpCount s.genCount }

/-! ### The generation run (R108) -/

/-- One round in `DREG`: test, shift, conditional XOR with the whole divisor; `RND` counts it, 7 going back to 0. -/
def GenRun.round (c : PolyConfig) (g : GenRun) : GenRun :=
  { g with
    dreg := if testedBit c.orientation g.dreg then shiftOne c.orientation g.dreg ^^^ c.divisor
            else shiftOne c.orientation g.dreg
    rnd := g.rnd + 1 }

/-- `IDX <- i`, `RND <- 0`, and `DREG` is loaded with the candidate byte. -/
def State.genLoad (o : Orientation) (i : Byte) (s : State) : State :=
  { s with gen := some { dreg := loadByte o i, idx := i, rnd := 0 } }

/-- One round of the run in progress. -/
def State.genRound (c : PolyConfig) (s : State) : State := { s with gen := s.gen.map (GenRun.round c) }

/-- `T[k][IDX] <- DREG`. -/
def State.genStore (k : Nat) (s : State) : State :=
  match s.gen with
  | some g => s.tabWrite k g.idx g.dreg
  | none => s

/-- The body of the outer loop for one `IDX`: load, 8 rounds (never fewer: R103), store. -/
def State.genEntry (c : PolyConfig) (k : Nat) (i : Byte) (s : State) : State :=
  ((State.genRound c)^[8] (s.genLoad c.orientation i)).genStore k

/-- The outer loop for `IDX` = 0, 1, …, `n - 1`, in ascending order. -/
def State.genEntries (c : PolyConfig) (k : Nat) : Nat → State → State
  | 0, s => s
  | n + 1, s => State.genEntry c k (BitVec.ofNat 8 n) (State.genEntries c k n s)

/-- While the run is in progress `SLOT[k].VALID` is treated as 0, and the old tag is gone. -/
def State.genBegin (k : Nat) (s : State) : State :=
  s.modifySlot k fun sl => { sl with valid := false, tag := none }

/-- The end of the run: the tag and `VALID` are written together; `DREG`, `IDX` and `RND` hold no value any more (R22). -/
def State.genFinish (c : PolyConfig) (k : Nat) (s : State) : State :=
  { s.modifySlot k (fun sl => { sl with valid := true, tag := some c }) with gen := none }

/-- `generation_run(k, d, o)`: 256 entries of 8 rounds each, inside one atomic `BUILD` (R57). -/
def State.generationRun (c : PolyConfig) (k : Nat) (s : State) : State :=
  State.genFinish c k (State.genEntries c k 256 (s.genBegin k))

end Sys2Proof.Machine
end

