-- ==== Sys2Proof/Machine/TableGenerator.lean ====
section
/-! DEFINITION. The Table Generator (40_table_generator.md): the per-byte division, the table it defines, and the
commands `BUILD` and `RDTAB`. -/

namespace Sys2Proof.Machine

/-- The preset divisor used with Reflected (R6, R88). -/
def presetReverse : Word := 0xEDB88320#32

/-- The preset divisor used with Normal (R6, R88). -/
def presetForward : Word := 0x04C11DB7#32

/-- One round of R101: bit 0 is tested before the logical right shift, the XOR comes after it. -/
def roundReflected (d r : Word) : Word := if r.getLsbD 0 then (r >>> 1) ^^^ d else r >>> 1

/-- One round of R102: bit 31 is tested before the left shift, which discards it, and the XOR comes after. -/
def roundNormal (d r : Word) : Word := if r.getLsbD 31 then (r <<< 1) ^^^ d else r <<< 1

/-- `divide_byte(b, d, o)` (R100 to R103): exactly 8 rounds for every input. -/
def divideByte (b : Byte) (d : Word) : Orientation → Word
  | .reflected => (roundReflected d)^[8] (zext32 b)
  | .normal => (roundNormal d)^[8] (zext32 b <<< 24)

/-- `table_of(d, o)` (R104), the 256 entries as a function of the index. -/
def tableOf (d : Word) (o : Orientation) (b : Byte) : Word := divideByte b d o

/-- `BUILD o, d` in `IDLE`, when no valid slot holds the config (R109): a generation run into the slot `FILL_PTR`
names.  A slot number outside the store faults. -/
def buildMiss (c : PolyConfig) (s : State) : Host.Outcome State Fault Refusal :=
  if s.fillPtr < s.slots.length then complete none ((s.generationRun c s.fillPtr).countRun s.fillPtr)
  else .fault (.noSuchSlot s.fillPtr)

/-- `BUILD o, d` (R109, R110, R111, R114). -/
def execBuild (o : Orientation) (d : Word) (s : State) : Host.Outcome State Fault Refusal :=
  match s.phase with
  | .active => refuse .errSeq s
  | .idle =>
    match s.findTag ⟨d, o⟩ with
    | some k => complete none (s.selectSlot k)
    | none => buildMiss ⟨d, o⟩ s

/-- `RDTAB i` (R115): legal in both phases, no state written. -/
def execRdtab (i : Byte) (s : State) : Host.Outcome State Fault Refusal :=
  if s.hasTable then complete (some (s.tabRead s.cur i)) s else refuse .errNoTable s

end Sys2Proof.Machine
end

