-- ==== Sys2Proof/Machine/Accumulator.lean ====
section
/-! DEFINITION. The Accumulator (41_accumulator.md): the byte update, the checksum it defines, and the commands
`START`, `BYTE` and `FINISH`. -/

namespace Sys2Proof.Machine

/-- `INIT` (R6): the initial value of the CRC Register, for every divisor and both orientations. -/
def crcInit : Word := 0xFFFFFFFF#32

/-- `XOROUT` (R6): the value XORed with the register once at the end. -/
def crcXorOut : Word := 0xFFFFFFFF#32

/-- `acc_index(r, b, o)` (R134), `r` the register before the update. -/
def accIndex (r : Word) (b : Byte) (o : Orientation) : Byte :=
  ((indexTerm o r ^^^ zext32 b) &&& 0xFF#32).setWidth 8

/-- `acc_next(r, b, t, o)` (R135, R136) with `t` the table entry at `acc_index(r, b, o)`: the byte enters through the
index alone (R137). -/
def accNext (r : Word) (_b : Byte) (t : Word) (o : Orientation) : Word := t ^^^ shiftByte o r

/-- One byte folded into the register over a table (R137: both terms come from the same old register). -/
def accFold (t : Byte → Word) (o : Orientation) (r : Word) (b : Byte) : Word := accNext r b (t (accIndex r b o)) o

/-- `crc(bytes, t, o)` (R141). -/
def crc (bytes : List Byte) (t : Byte → Word) (o : Orientation) : Word :=
  bytes.foldl (accFold t o) crcInit ^^^ crcXorOut

/-- `START o` (R131, R132).  The orientation is not compared with the table's (R166). -/
def execStart (o : Orientation) (s : State) : Host.Outcome State Fault Refusal :=
  match s.phase with
  | .active => refuse .errSeq s
  | .idle => if s.hasTable then complete none (s.openComputation crcInit o) else refuse .errNoTable s

/-- `BYTE b` (R133): one table read, one register write. -/
def execByte (b : Byte) (s : State) : Host.Outcome State Fault Refusal :=
  match s.phase with
  | .idle => refuse .errSeq s
  | .active => complete none (s.writeReg (accFold (s.tabRead s.cur) s.accOrient s.regValue b))

/-- `FINISH` (R140): the final XOR, exactly once (R142); no bit reversal in either orientation (R164). -/
def execFinish (s : State) : Host.Outcome State Fault Refusal :=
  match s.phase with
  | .idle => refuse .errSeq s
  | .active => complete (some (s.regValue ^^^ crcXorOut)) s.endComputation

end Sys2Proof.Machine
end

