-- ==== Sys2Proof/Machine/Flags.lean ====
section
/-! DEFINITION. The core has no condition codes and no arithmetic flags (10_state.md R36).  The flag-like bits it does
have: `PHASE` and the `VALID` bits as `STATUS` shows them (R34), and the `ST` and `V` fields of a response word (R76). -/

namespace Sys2Proof.Machine

/-- `IDLE` = 0, `ACTIVE` = 1 (R26). -/
def Phase.bit : Phase → BitVec 1
  | .idle => 0#1
  | .active => 1#1

/-- `STATUS.CUR_ORIENT` (R34): the current tag's orientation when the current table exists, else 0. -/
def State.curOrientBit (s : State) : BitVec 1 :=
  if s.hasTable then (s.slotTag s.cur).orientation.bit else 0#1

/-- `STATUS` (R34): bit 0 `PHASE`, bit 1 `ACC_ORIENT`, bit 2 `CUR_VALID`, bit 3 `CUR_ORIENT`, bits 31:4 read as 0. -/
def State.statusWord (s : State) : Word :=
  0#28 ++ s.curOrientBit ++ BitVec.ofBool s.hasTable ++ s.accOrient.bit ++ s.phase.bit

/-- The status field `ST` (R200). -/
def Status.code : Status → BitVec 4
  | .ok => 0x0#4
  | .errNotFound => 0x1#4
  | .errIo => 0x2#4
  | .errIllegal => 0x3#4
  | .errSeq => 0x4#4
  | .errNoTable => 0x5#4

/-- Reading a status field: the codes 6 to 15 are reserved and never produced (R200). -/
def Status.ofCode (c : BitVec 4) : Option Status :=
  if c = 0x0#4 then some .ok
  else if c = 0x1#4 then some .errNotFound
  else if c = 0x2#4 then some .errIo
  else if c = 0x3#4 then some .errIllegal
  else if c = 0x4#4 then some .errSeq
  else if c = 0x5#4 then some .errNoTable
  else none

/-- The 40 bits on `rsp` (R76): `ST`, `RSV` = 0, `V`, `DATA`.  When `V = 0` the `DATA` wires carry bits that mean
nothing (R77, U3): they are the argument `undriven`, which nothing constrains. -/
def Response.word (undriven : Word) (r : Response) : RspWord :=
  r.status.code ++ 0#3 ++ BitVec.ofBool r.payload.isSome ++ r.payload.getD undriven

/-- What a host reads from a response word: the payload only when `V = 1` (R77). -/
def Response.ofWord (w : RspWord) : Option Response :=
  (Status.ofCode (w.extractLsb' 36 4)).map fun st =>
    { status := st, payload := if w.getLsbD 32 then some (w.extractLsb' 0 32) else none }

end Sys2Proof.Machine
end

