-- ==== Sys2Proof/Machine/SystemCommands.lean ====
section
/-! DEFINITION. The Byte Source's failure, the status reads and the reserved opcodes (43_system_commands.md), and the
answer to a malformed word that selects no row (30_encoding.md R82). -/

namespace Sys2Proof.Machine

/-- The status a Byte Source failure is answered with (R201, R202). -/
def failStatus : FailKind → Status
  | .notFound => .errNotFound
  | .ioError => .errIo

/-- `FAIL k` (R181): the computation ends and no function of `REG` is returned. -/
def execFail (k : FailKind) (s : State) : Host.Outcome State Fault Refusal :=
  match s.phase with
  | .idle => refuse .errSeq s
  | .active => .next (s.endComputation.respond (failStatus k) none)

/-- `RDSR STATUS` (R184, R34). -/
def execRdsrStatus (s : State) : Host.Outcome State Fault Refusal := complete (some s.statusWord) s

/-- `RDSR DIVISOR` (R184, R35): readable only when the current table exists. -/
def execRdsrDivisor (s : State) : Host.Outcome State Fault Refusal :=
  if s.hasTable then complete (some (s.slotTag s.cur).divisor) s else refuse .errNoTable s

/-- `RDSR GENCOUNT` (R184, R32): reading does not clear it. -/
def execRdsrGencount (s : State) : Host.Outcome State Fault Refusal := complete (some s.genCount) s

/-- Reserved opcode 0 (R185): malformed whatever its other bits. -/
def execReservedOp0 (_rest : BitVec 36) (s : State) : Host.Outcome State Fault Refusal := refuse .errIllegal s

/-- Reserved opcodes 8 to 15 (R185): malformed whatever their other bits. -/
def execReservedOp8F (_op : BitVec 4) (_rest : BitVec 36) (s : State) : Host.Outcome State Fault Refusal :=
  refuse .errIllegal s

/-- A word of a legal opcode that selects no row (R82): accepted like any other, answered `ERR_ILLEGAL`, the check
made before any other (R210). -/
def execMalformed (_why : Reject) (s : State) : Host.Outcome State Fault Refusal := refuse .errIllegal s

end Sys2Proof.Machine
end

