-- ==== Sys2Proof/Machine/Dispatch.lean ====
section
/-! DEFINITION. One arm per constructor of `Instr`: the meaning of each command. -/

namespace Sys2Proof.Machine

def exec (i : Instr) (s : State) : Host.Outcome State Fault Refusal :=
  match i with
  | .build o d => Sys2Proof.Machine.execBuild o d s
  | .rdtab idx => Sys2Proof.Machine.execRdtab idx s
  | .start o => Sys2Proof.Machine.execStart o s
  | .byte b => Sys2Proof.Machine.execByte b s
  | .finish => Sys2Proof.Machine.execFinish s
  | .fail k => Sys2Proof.Machine.execFail k s
  | .rdsrStatus => Sys2Proof.Machine.execRdsrStatus s
  | .rdsrDivisor => Sys2Proof.Machine.execRdsrDivisor s
  | .rdsrGencount => Sys2Proof.Machine.execRdsrGencount s
  | .reservedOp0 rest => Sys2Proof.Machine.execReservedOp0 rest s
  | .reservedOp8F op rest => Sys2Proof.Machine.execReservedOp8F op rest s

end Sys2Proof.Machine
end

