-- ==== Sys2Proof/Machine/Ports.lean ====
section
/-! DEFINITION. The command and response channels (30_encoding.md R70 to R75) and the reset event
(70_reset_and_hazards.md R231) at transaction level (R8): no clock cycle is counted (R250). -/

namespace Sys2Proof.Machine

/-- `cmd_valid`. -/
def State.cmdValid (s : State) : Bool := s.cmdPort.isSome

/-- `cmd_ready`: low from the acceptance of a command until the delivery of its response (R74).  A command's execution
is one step, so between steps that is while a response stands on the port. -/
def State.cmdReady (s : State) : Bool := s.rspPort.isNone

/-- `rsp_valid`. -/
def State.rspValid (s : State) : Bool := s.rspPort.isSome

/-- The word the core accepts now: the one offered, when `cmd_valid` and `cmd_ready` are both 1 (R71). -/
def State.acceptable (s : State) : Option CmdWord := if s.cmdReady then s.cmdPort else none

/-- The word is accepted: the host no longer holds it. -/
def State.acceptCommand (s : State) : State := { s with cmdPort := none }

/-- A word placed on the command port, and the response port free, so that the next step accepts that word. -/
def State.placeCommand (w : CmdWord) (s : State) : State := { s with cmdPort := some w, rspPort := none }

/-- A response is delivered when the core offers one and the host takes it (R73); otherwise nothing happens. -/
def State.deliver (s : State) : State :=
  match s.rspPort with
  | some r => { s with rspPort := none, observed := s.observed ++ [r] }
  | none => s

/-- The reset event (R231) on a core with the slots it has: the reset values of R39, and a response offered but not yet
delivered is withdrawn.  What the host drives (the offered word), what it will do and what it has observed are the
host's own and stay. -/
def State.resetEvent (s : State) : State :=
  { State.resetWith s.slots.length with cmdPort := s.cmdPort, host := s.host, observed := s.observed }

/-- The host offers a word (R71): while `cmd_valid` is 1 it holds the word stable, and offering another one before
acceptance is outside the model (U14).  That it does not lower `cmd_valid` either is the model's choice (log entry 16). -/
def offerCommand (w : CmdWord) (s : State) : Host.Outcome State Fault Refusal :=
  match s.cmdPort with
  | none => .next { s with cmdPort := some w }
  | some held => if held = w then .next s else .refused (.commandChanged held w)

/-- What the machine does when it accepts no command: the host's next act, or nothing when the host does nothing (R209:
the core never acts except in execution of an accepted command or on reset). -/
def hostStep (s : State) : Host.Outcome State Fault Refusal :=
  match s.host with
  | [] => .next s
  | .offer w :: rest => offerCommand w { s with host := rest }
  | .take :: rest => .next (State.deliver { s with host := rest })
  | .reset :: rest => .next (State.resetEvent { s with host := rest })

end Sys2Proof.Machine
end

