-- ==== Sys2Proof/Machine/Step.lean ====
section
/-! DEFINITION. One step of the machine: the acceptance of one command word together with the production of its one
response (00_scope.md R8), or, when no word can be accepted, the host's next act at the ports. -/

namespace Sys2Proof.Machine

/-- The execution of an accepted word: total over all 40-bit words (R74, R83). -/
def execWord (w : CmdWord) (s : State) : Host.Outcome State Fault Refusal :=
  match decode w with
  | .instr i => exec i s
  | .reject why => execMalformed why s

/-- One step. -/
def step (s : State) : Host.Outcome State Fault Refusal :=
  match s.acceptable with
  | some w => execWord w s.acceptCommand
  | none => hostStep s

/-- The state with the command word of these bits on the command port, where the next step accepts it. -/
def State.withFetchWord (s : State) (nbits w : Nat) : State := s.placeCommand (tableWord nbits w)

end Sys2Proof.Machine
end

