-- ==== Sys2Proof/Machine/Assembly.lean ====
section
/-! DEFINITION. The spec's text for commands (30_encoding.md R85) and its pseudo-commands (R86 to R88). -/

namespace Sys2Proof.Machine

/-- One hexadecimal digit, in capitals. -/
def hexDigit (n : Nat) : Char := "0123456789ABCDEF".toList.getD (n % 16) '0'

/-- `n` digits of a number in C-style hexadecimal. -/
def hexText (n v : Nat) : String :=
  "0x" ++ String.ofList ((List.range n).map fun k => hexDigit (v / 16 ^ (n - 1 - k)))

/-- `R` for Reflected, `N` for Normal. -/
def Orientation.text : Orientation → String
  | .reflected => "R"
  | .normal => "N"

/-- A command as R85 writes it; a reserved word as `.word w`. -/
def commandText : Instr → String
  | .build o d => "BUILD " ++ Orientation.text o ++ ", " ++ hexText 8 d.toNat
  | .rdtab i => "RDTAB " ++ hexText 2 i.toNat
  | .start o => "START " ++ Orientation.text o
  | .byte b => "BYTE " ++ hexText 2 b.toNat
  | .finish => "FINISH"
  | .fail .notFound => "FAIL NOTFOUND"
  | .fail .ioError => "FAIL IO"
  | .rdsrStatus => "RDSR STATUS"
  | .rdsrDivisor => "RDSR DIVISOR"
  | .rdsrGencount => "RDSR GENCOUNT"
  | .reservedOp0 rest => ".word " ++ hexText 10 (encode (.reservedOp0 rest)).toNat
  | .reservedOp8F op rest => ".word " ++ hexText 10 (encode (.reservedOp8F op rest)).toNat

/-- `TABLE o, d` (R86): `BUILD o, d`, then `RDTAB 0` to `RDTAB 255`. -/
def pseudoTable (o : Orientation) (d : Word) : List Instr :=
  .build o d :: (List.range 256).map fun i => .rdtab (BitVec.ofNat 8 i)

/-- `COMPUTE o, b1, …, bn` (R87): `START o`, the bytes, `FINISH`. -/
def pseudoCompute (o : Orientation) (bytes : List Byte) : List Instr :=
  .start o :: (bytes.map .byte ++ [.finish])

/-- `COMPUTE` when the Byte Source fails after these bytes (R87): `FAIL kind` in place of `FINISH`. -/
def pseudoComputeFailed (o : Orientation) (bytes : List Byte) (k : FailKind) : List Instr :=
  .start o :: (bytes.map .byte ++ [.fail k])

/-- `BUILD.REVERSE` (R88). -/
def pseudoBuildReverse : Instr := .build .reflected presetReverse

/-- `BUILD.FORWARD` (R88). -/
def pseudoBuildForward : Instr := .build .normal presetForward

end Sys2Proof.Machine
end

