-- ==== Sys2Proof/Safety.lean ====
section
/-! DEFINITION. What claims are stated in: the malformed words, the states a run can reach, and a run as a sequence of
transactions. -/

namespace Sys2Proof.Machine

/-! ### Malformed words -/

/-- A malformed command word, clause by clause as R82 lists them over the fields of R80. -/
abbrev Malformed (w : CmdWord) : Prop :=
  opField w = 0x0#4 ∨ 8 ≤ (opField w).toNat ∨ rsvField w ≠ 0#3 ∨
  (opField w = 0x2#4 ∧ (oField w ≠ 0#1 ∨ 256 ≤ (dataField w).toNat)) ∨
  (opField w = 0x3#4 ∧ dataField w ≠ 0#32) ∨
  (opField w = 0x4#4 ∧ (oField w ≠ 0#1 ∨ 256 ≤ (dataField w).toNat)) ∨
  (opField w = 0x5#4 ∧ (oField w ≠ 0#1 ∨ dataField w ≠ 0#32)) ∨
  (opField w = 0x6#4 ∧ (oField w ≠ 0#1 ∨ 2 ≤ (dataField w).toNat)) ∨
  (opField w = 0x7#4 ∧ (oField w ≠ 0#1 ∨ 3 ≤ (dataField w).toNat))

/-- The commands that return a value when they succeed (R77). -/
abbrev ReturnsValue : Instr → Prop
  | .rdtab _ | .finish | .rdsrStatus | .rdsrDivisor | .rdsrGencount => True
  | .build _ _ | .start _ | .byte _ | .fail _ | .reservedOp0 _ | .reservedOp8F _ _ => False

/-! ### The states a run reaches -/

/-- The slot is valid and holds the whole table of a config (R29, R38). -/
def Slot.Holds (sl : Slot) (c : PolyConfig) : Prop :=
  sl.valid = true ∧ sl.tag = some c ∧ ∀ i, sl.entry i = some (tableOf c.divisor c.orientation i)

/-- The slot is invalid, and its tag and entries hold no value (R39, R40). -/
def Slot.Blank (sl : Slot) : Prop := sl.valid = false ∧ sl.tag = none ∧ ∀ i, sl.entry i = none

/-- What holds between commands in every state a run reaches. -/
structure State.Inv (s : State) : Prop where
  /-- `CUR` and `FILL_PTR` name slots that exist, so there is at least one (R7, R28). -/
  cur_lt : s.cur < s.slots.length
  fillPtr_lt : s.fillPtr < s.slots.length
  /-- The slot invariant (R29), and nothing in an invalid slot (R40). -/
  slot_ok : ∀ sl ∈ s.slots, sl.Blank ∨ ∃ c, sl.Holds c
  /-- Tag uniqueness (R33). -/
  tags_unique : ∀ j k, s.slotValid j = true → s.slotValid k = true → s.slotTag j = s.slotTag k → j = k
  /-- The slots fill in the order 0, 1, 2, …, each invalid until then (R31). -/
  fill_order : (∀ k, k < s.slots.length → s.slotValid k = true) ∨ ∀ k, s.slotValid k = true ↔ k < s.fillPtr
  /-- The current table exists from the first generation run on (R205). -/
  table_iff : s.hasTable = true ↔ s.genCount ≠ 0
  valid_table : ∀ k, s.slotValid k = true → s.hasTable = true
  /-- A computation has a table (R205). -/
  active_table : s.phase = .active → s.hasTable = true
  /-- `REG` holds a value exactly while a computation is in progress (R40). -/
  reg_iff : s.reg.isSome = true ↔ s.phase = .active
  /-- `DREG`, `IDX` and `RND` hold none between commands (R22). -/
  gen_none : s.gen = none

/-- Two states with the same core state (R20), whatever stands on the ports and whatever the host did and will do. -/
abbrev SameCore (s t : State) : Prop :=
  t.reg = s.reg ∧ t.gen = s.gen ∧ t.phase = s.phase ∧ t.accOrient = s.accOrient ∧ t.slots = s.slots ∧
  t.cur = s.cur ∧ t.fillPtr = s.fillPtr ∧ t.genCount = s.genCount

/-- Two states whose table store, `CUR`, `FILL_PTR` and `GEN_COUNT` are the same. -/
abbrev SameStore (s t : State) : Prop :=
  t.slots = s.slots ∧ t.cur = s.cur ∧ t.fillPtr = s.fillPtr ∧ t.genCount = s.genCount

/-- Two states that agree on the ports' command side, the host's acts and what it has observed. -/
abbrev SameHost (s t : State) : Prop := t.cmdPort = s.cmdPort ∧ t.host = s.host ∧ t.observed = s.observed

/-! ### Runs -/

/-- One transaction (R8): a word is accepted and executed, and its one response is delivered. -/
def transact (w : CmdWord) (s : State) : Option State :=
  match execWord w s with
  | .next t => some t.deliver
  | .fault _ => none
  | .refused _ => none

/-- A sequence of transactions, one after the other (R62, R74).  The responses are what `observed` gains. -/
def runWords : List CmdWord → State → Option State
  | [], s => some s
  | w :: ws, s => (transact w s).bind (runWords ws)

/-- The Polynomial Configs of the successful `BUILD`s among these words, given their responses (R113). -/
def builtConfigs (ws : List CmdWord) (rs : List Response) : List PolyConfig :=
  (ws.zip rs).filterMap fun p =>
    match decode p.1 with
    | .instr (.build o d) => if p.2.status = .ok then some ⟨d, o⟩ else none
    | _ => none

/-- The bytes that these words deliver to the Accumulator, in order. -/
def deliveredBytes (ws : List CmdWord) : List Byte :=
  ws.filterMap fun w =>
    match decode w with
    | .instr (.byte b) => some b
    | _ => none

/-- A word that ends a computation when it is accepted in `ACTIVE`: `FINISH` or `FAIL` (R26). -/
def endsComputation (w : CmdWord) : Bool :=
  match decode w with
  | .instr .finish => true
  | .instr (.fail _) => true
  | _ => false

/-- The table the core computes over (R30). -/
def State.currentTable (s : State) (i : Byte) : Word := s.tabRead s.cur i

end Sys2Proof.Machine
end

