-- ==== Sys2Proof/Certificates/Slice0/Obligations.lean ====
section
/-! DEFINITION. The statements about the core, each from the numbered rules of spec/ that its docstring cites. -/

open Sys2Proof Sys2Proof.Machine

/-! ### Encoding (30_encoding.md) -/

/-- A few command words of the spec's list (95_test_vectors.md V-E1, V-E2), one or more of every opcode, decode to what
the spec says they are. -/
def Obligations.SpecWordsDecodeAsListed : Prop :=
  decode 0x10EDB88320#40 = .instr (.build .reflected 0xEDB88320#32) ∧
  decode 0x1104C11DB7#40 = .instr (.build .normal 0x04C11DB7#32) ∧
  decode 0x20000000FF#40 = .instr (.rdtab 0xFF#8) ∧
  decode 0x3100000000#40 = .instr (.start .normal) ∧
  decode 0x4000000031#40 = .instr (.byte 0x31#8) ∧
  decode 0x5000000000#40 = .instr .finish ∧
  decode 0x6000000001#40 = .instr (.fail .ioError) ∧
  decode 0x7000000000#40 = .instr .rdsrStatus ∧
  decode 0x7000000001#40 = .instr .rdsrDivisor ∧
  decode 0x7000000002#40 = .instr .rdsrGencount ∧
  decode 0x7000000003#40 = .reject .reservedRegister ∧
  decode 0x12EDB88320#40 = .reject .reservedBits ∧
  decode 0x2100000001#40 = .reject .orientationNotZero ∧
  decode 0x4000000100#40 = .reject .dataNotZero ∧
  decode 0x0000000000#40 = .instr (.reservedOp0 0#36) ∧
  decode 0xF000000000#40 = .instr (.reservedOp8F 0xF#4 0#36)

/-- Decoding the word of any well-formed instruction gives the instruction back, every operand at every value its
field admits (R72, R79, R80, R81). -/
def Obligations.DecodeOfEncodeIsTheInstruction : Prop :=
  ∀ i : Instr, i.wellFormed = true → decode (encode i) = .instr i

/-- A word has at most one meaning and no bit of it is dropped: the instruction it decodes to is well formed and its
word is that word (R81, R83). -/
def Obligations.DecodedWordIsItsOwnEncoding : Prop :=
  ∀ (w : CmdWord) (i : Instr), decode w = .instr i → i.wellFormed = true ∧ encode i = w

/-- The decoder and the opcode table's match and mask pairs give the same partition of the 40-bit words: a word that
decodes to an instruction selects that instruction's row and no other, a rejected word selects none (R83). -/
def Obligations.DecoderAgreesWithOpcodeTable : Prop :=
  ∀ w : CmdWord,
    (∀ i, decode w = .instr i → i.row ∈ opcodeTable ∧ ∀ r ∈ opcodeTable, r.selects w = true ↔ r = i.row) ∧
    (∀ why, decode w = .reject why → ∀ r ∈ opcodeTable, r.selects w = false)

/-- A malformed word, by R82's own clauses, is answered `ERR_ILLEGAL` with no payload in every state and changes
nothing, whatever else would apply to it (R82, R203, R210). -/
def Obligations.MalformedWordIsAnsweredIllegal : Prop :=
  ∀ (w : CmdWord) (s : State), Malformed w →
    execWord w s = .next { s with rspPort := some { status := .errIllegal, payload := none } }

/-- A word that is not malformed is never answered `ERR_ILLEGAL` (R82, R203). -/
def Obligations.OnlyMalformedWordsAreIllegal : Prop :=
  ∀ (w : CmdWord) (s t : State), ¬ Malformed w → execWord w s = .next t →
    ∃ r, t.rspPort = some r ∧ r.status ≠ .errIllegal

/-- The wire word of a response (R76, R77): a host reads the response back from it, whatever the undriven wires carry;
`RSV` is 0, and `V` is 1 exactly when there is a payload. -/
def Obligations.ResponseWordCarriesTheResponse : Prop :=
  ∀ (undriven : Word) (r : Response),
    Response.ofWord (r.word undriven) = some r ∧
    (r.word undriven).extractLsb' 33 3 = 0#3 ∧
    ((r.word undriven).getLsbD 32 = true ↔ r.payload.isSome = true)

/-! ### The step (00_scope.md R8, 30_encoding.md R70 to R75) -/

/-- When a word is offered, no response is pending and the word decodes to an instruction, a step is that instruction's
execution on the state in which the host no longer holds the word (R8, R71, R74).  That this comes before the host's
next act, whatever it is, a reset included, is the model's choice (log entries 7 and 6). -/
def Obligations.StepRunsTheAcceptedInstruction : Prop :=
  ∀ (s : State) (w : CmdWord) (i : Instr),
    s.cmdPort = some w → s.rspPort = none → decode w = .instr i →
    step s = exec i { s with cmdPort := none }

/-- When the accepted word selects no row, the step answers it `ERR_ILLEGAL` and changes nothing else (R82).  That this
comes before the host's next act, a reset included, is the model's choice (log entries 7 and 6); that `decode` rejects
such a word by name and the step answers it is the model's form of the rule (log entry 9). -/
def Obligations.StepAnswersAWordThatSelectsNoRow : Prop :=
  ∀ (s : State) (w : CmdWord) (why : Reject),
    s.cmdPort = some w → s.rspPort = none → decode w = .reject why →
    step s = .next { s with cmdPort := none, rspPort := some { status := .errIllegal, payload := none } }

/-- While a response is pending no command is accepted: the core's state and the offered word stay; the response is held
while the host does not take it, and is delivered when the host takes it (R71, R73, R74).  Reset, which withdraws it,
apart.  That the host cannot withdraw the offered word meanwhile is the model's choice (log entry 16). -/
def Obligations.PendingResponseHoldsTheCore : Prop :=
  ∀ (s t : State) (r : Response),
    s.rspPort = some r → s.host.head? ≠ some .reset → step s = .next t →
    SameCore s t ∧ (s.cmdPort.isSome = true → t.cmdPort = s.cmdPort) ∧
    (s.host.head? = some .take → t.rspPort = none ∧ t.observed = s.observed ++ [r]) ∧
    (s.host.head? ≠ some .take → t.rspPort = some r ∧ t.observed = s.observed)

/-- The core never acts except in execution of an accepted command or on reset (R209): while no word can be accepted,
whatever the host does but a reset, the core's state stays, and no response appears or is delivered where none was
pending (R71, R75).  When the host does nothing either, the whole state stays; that the machine has a step there at all
is the model's own (log entry 10). -/
def Obligations.CoreDoesNotActUnasked : Prop :=
  (∀ s t : State, s.acceptable = none → s.host.head? ≠ some .reset → step s = .next t →
    SameCore s t ∧ (s.rspPort = none → t.rspPort = none ∧ t.observed = s.observed)) ∧
  ∀ s : State, s.acceptable = none → s.host = [] → step s = .next s

/-- The reset event takes every state with `TABLE_SLOTS` slots to the reset values of R39 and withdraws an undelivered
response (R231).  That the offered word, the host's later acts and what it has observed stay is the model's reading
(log entry 6). -/
def Obligations.ResetEventTakesTheResetState : Prop :=
  ∀ (s : State) (rest : List HostAct), s.acceptable = none → s.host = .reset :: rest →
    ∃ t, step s = .next t ∧
      t.phase = .idle ∧ t.accOrient = .reflected ∧ t.slots.length = s.slots.length ∧
      (∀ sl ∈ t.slots, sl.Blank) ∧ t.cur = 0 ∧ t.fillPtr = 0 ∧ t.genCount = 0#32 ∧ t.reg = none ∧ t.gen = none ∧
      t.rspPort = none ∧ t.cmdPort = s.cmdPort ∧ t.host = rest ∧ t.observed = s.observed

/-- The reset values of R39, for every number of slots: so `STATUS` reads 0, no table is current and `GEN_COUNT` is 0. -/
def Obligations.ResetValuesAreTheSpecs : Prop :=
  ∀ n : Nat,
    (State.resetWith n).phase = .idle ∧ (State.resetWith n).accOrient = .reflected ∧
    (State.resetWith n).slots.length = n ∧ (∀ sl ∈ (State.resetWith n).slots, sl.Blank) ∧
    (State.resetWith n).cur = 0 ∧ (State.resetWith n).fillPtr = 0 ∧ (State.resetWith n).genCount = 0#32 ∧
    (State.resetWith n).reg = none ∧ (State.resetWith n).gen = none ∧
    (State.resetWith n).statusWord = 0#32 ∧ (State.resetWith n).hasTable = false

/-- The invariant holds at reset, for every number of slots from 1 up. -/
def Obligations.ResetMeetsTheInvariant : Prop :=
  (∀ n : Nat, 1 ≤ n → (State.resetWith n).Inv) ∧ State.reset.Inv

/-- Every step keeps the invariant: the slot invariant (R29), tag uniqueness (R33), the filling order (R31), `REG`
valued exactly in `ACTIVE` (R40), a table whenever a computation runs (R205). -/
def Obligations.StepKeepsTheInvariant : Prop :=
  ∀ s t : State, s.Inv → step s = .next t → t.Inv

/-- The step function on commands is total: in every state that meets the invariant every 40-bit word has a next state
with one response, and no step faults (R74, R83). -/
def Obligations.EveryWordHasANextStateAndAResponse : Prop :=
  ∀ s : State, s.Inv →
    (∀ w : CmdWord, ∃ t r, execWord w s = .next t ∧ t.rspPort = some r) ∧ (∀ f : Fault, step s ≠ .fault f)

/-- A transaction, which is one step of the spec's machine (R8), is three steps of the model: the host offers the word,
the core executes it, the host takes the response.  That these are three steps, in this order, is the model's own (log
entries 1, 7 and 12); what each does is R71, R74 and R73. -/
def Obligations.TransactionIsThreeSteps : Prop :=
  ∀ (s t : State) (w : CmdWord) (rest : List HostAct),
    s.cmdPort = none → s.rspPort = none → s.host = .offer w :: .take :: rest →
    transact w { s with host := rest } = some t →
    Host.Core.run Sys2Proof.core 3 s = .next t

/-- Every executed command produces exactly one response, and it carries a payload exactly when its status is `OK` and
the command returns a value (R75, R77). -/
def Obligations.PayloadExactlyOnSuccessfulRead : Prop :=
  ∀ (i : Instr) (s t : State), exec i s = .next t →
    ∃ r, t.rspPort = some r ∧ (r.payload.isSome = true ↔ r.status = .ok ∧ ReturnsValue i)

/-! ### The division and the table (40_table_generator.md) -/

/-- The zero row: `divide_byte(0, d, o) = 0`, so entry 0 of every table is 0 (R105). -/
def Obligations.ZeroByteDividesToZero : Prop :=
  ∀ (d : Word) (o : Orientation), divideByte 0#8 d o = 0#32 ∧ tableOf d o 0#8 = 0#32

/-- The corner cases of `divide_byte` that R106 lists, with its examples. -/
def Obligations.DivisionCornerCases : Prop :=
  (∀ (b : Byte) (o : Orientation), divideByte b 0#32 o = 0#32 ∧ tableOf 0#32 o b = 0#32) ∧
  (∀ d : Word, divideByte 0x80#8 d .reflected = d) ∧
  tableOf 0xEDB88320#32 .reflected 0x80#8 = 0xEDB88320#32 ∧
  (∀ d : Word, divideByte 0x01#8 d .normal = d) ∧
  tableOf 0x04C11DB7#32 .normal 0x01#8 = 0x04C11DB7#32 ∧
  divideByte 0xA5#8 0xFFFFFFFF#32 .reflected = 0xB5FFFFFF#32 ∧
  divideByte 0xA5#8 0xFFFFFFFF#32 .normal = 0xFFFFFFAD#32 ∧
  divideByte 0x01#8 0x04C11DB7#32 .reflected = 0x06233697#32 ∧
  divideByte 0x01#8 0x04C11DB7#32 .normal = 0x04C11DB7#32

/-- Linearity: the division of an XOR of two bytes is the XOR of their divisions (R107). -/
def Obligations.DivisionIsLinear : Prop :=
  ∀ (a b : Byte) (d : Word) (o : Orientation), divideByte (a ^^^ b) d o = divideByte a d o ^^^ divideByte b d o

/-- The two orientations are one computation in reversed bit order: the reflected division is the bit reversal of the
normal division of the reversed byte by the reversed divisor (R116, R164). -/
def Obligations.ReflectedDivisionIsReversedNormal : Prop :=
  ∀ (b : Byte) (d : Word), divideByte b d .reflected = (divideByte b.reverse d.reverse .normal).reverse

/-- The same of whole checksums, the input bytes reversed as well (R164). -/
def Obligations.ReflectedChecksumIsReversedNormal : Prop :=
  ∀ (bytes : List Byte) (d : Word),
    crc bytes (tableOf d .reflected) .reflected =
      (crc (bytes.map BitVec.reverse) (tableOf d.reverse .normal) .normal).reverse

/-! ### `BUILD` and `RDTAB` -/

/-- `BUILD` hit: in `IDLE`, when a valid slot holds the config, that slot becomes current and nothing else changes
(R109, R112). -/
def Obligations.BuildHitSelectsTheSlot : Prop :=
  ∀ (s : State) (o : Orientation) (d : Word) (k : Nat),
    s.Inv → s.phase = .idle → s.slotValid k = true → s.slotTag k = { divisor := d, orientation := o } →
    exec (.build o d) s = .next { s with cur := k, rspPort := some { status := .ok, payload := none } }

/-- `BUILD` miss: in `IDLE`, when no valid slot holds the config, the slot `FILL_PTR` names is filled with the whole
table of the config, becomes current, `FILL_PTR` moves on round-robin and `GEN_COUNT` counts the run, saturating; no
other slot and nothing else changes (R108, R109, R114, R31, R32). -/
def Obligations.BuildMissFillsTheSlot : Prop :=
  ∀ (s : State) (o : Orientation) (d : Word),
    s.phase = .idle → s.fillPtr < s.slots.length →
    (∀ k, s.slotValid k = true → s.slotTag k ≠ { divisor := d, orientation := o }) →
    ∃ t, exec (.build o d) s = .next t ∧
      t.rspPort = some { status := .ok, payload := none } ∧
      t.cur = s.fillPtr ∧ t.fillPtr = (s.fillPtr + 1) % s.slots.length ∧
      t.genCount.toNat = min (s.genCount.toNat + 1) 0xFFFFFFFF ∧
      t.slotValid s.fillPtr = true ∧ t.slotTag s.fillPtr = { divisor := d, orientation := o } ∧
      (∀ i, t.tabRead s.fillPtr i = divideByte i d o) ∧
      (∀ j, j ≠ s.fillPtr → t.slots[j]? = s.slots[j]?) ∧ t.slots.length = s.slots.length ∧
      t.gen = none ∧ t.reg = s.reg ∧ t.phase = s.phase ∧ t.accOrient = s.accOrient ∧ SameHost s t

/-- `BUILD` has no failure of its own: in `IDLE` it succeeds for every divisor, both orientations, every content of the
table store and every number of slots (R111).  The premise says that `FILL_PTR` names a slot, as it always does. -/
def Obligations.BuildAlwaysSucceedsInIdle : Prop :=
  ∀ (s : State) (o : Orientation) (d : Word), s.phase = .idle → s.fillPtr < s.slots.length →
    ∃ t, exec (.build o d) s = .next t ∧ t.rspPort = some { status := .ok, payload := none } ∧
      t.slotValid t.cur = true ∧ t.slotTag t.cur = { divisor := d, orientation := o }

/-- `BUILD` while a computation is in progress is answered `ERR_SEQ` and changes nothing (R110). -/
def Obligations.BuildRefusedDuringComputation : Prop :=
  ∀ (s : State) (o : Orientation) (d : Word), s.phase = .active →
    exec (.build o d) s = .next { s with rspPort := some { status := .errSeq, payload := none } }

/-- The model's choice, log entry 4: a `BUILD` that would fill a slot which does not exist faults.  No run reaches such
a state. -/
def Obligations.BuildFaultsOutsideTheStore : Prop :=
  ∀ (s : State) (o : Orientation) (d : Word), s.phase = .idle → s.slots.length ≤ s.fillPtr →
    (∀ k, s.slotValid k = true → s.slotTag k ≠ { divisor := d, orientation := o }) →
    exec (.build o d) s = .fault (.noSuchSlot s.fillPtr)

/-- The law `GEN_COUNT` obeys, from reset, for every number of slots: with `K` distinct configs among the successful
`BUILD`s, `GEN_COUNT = K` when `K` is at most `TABLE_SLOTS`, and `GEN_COUNT >= K` otherwise, saturation apart (R113). -/
def Obligations.GenCountCountsDistinctConfigs : Prop :=
  ∀ (n : Nat) (ws : List CmdWord) (t : State), 1 ≤ n → runWords ws (State.resetWith n) = some t →
    (builtConfigs ws t.observed).dedup.length < 2 ^ 32 →
    ((builtConfigs ws t.observed).dedup.length ≤ n →
      t.genCount.toNat = (builtConfigs ws t.observed).dedup.length) ∧
    (builtConfigs ws t.observed).dedup.length ≤ t.genCount.toNat

/-- No command but a `BUILD` that misses changes `GEN_COUNT`, and that one adds 1, saturating at `0xFFFFFFFF` (R32). -/
def Obligations.GenCountAddsOnePerRunAndSaturates : Prop :=
  ∀ (i : Instr) (s t : State), exec i s = .next t →
    (t.genCount = s.genCount ∧
      ∀ o d, i = .build o d → s.phase = .idle →
        ∃ k, s.slotValid k = true ∧ s.slotTag k = { divisor := d, orientation := o }) ∨
    ((∃ o d, i = .build o d ∧ s.phase = .idle ∧
        ∀ k, s.slotValid k = true → s.slotTag k ≠ { divisor := d, orientation := o }) ∧
      t.genCount = if s.genCount = 0xFFFFFFFF#32 then 0xFFFFFFFF#32 else s.genCount + 1#32)

/-- `RDTAB i` returns `divide_byte(i, d, o)` for the current tag `(d, o)`, in both phases, and writes nothing (R115,
R29). -/
def Obligations.RdtabReturnsTheDivision : Prop :=
  ∀ (s : State) (i : Byte), s.Inv → s.hasTable = true →
    exec (.rdtab i) s =
      .next { s with
        rspPort := some
          { status := .ok
            payload := some (divideByte i (s.slotTag s.cur).divisor (s.slotTag s.cur).orientation) } }

/-- What needs the current table answers `ERR_NOTABLE` when there is none, and changes nothing: `START` in `IDLE` (R205,
R131), `RDTAB` and `RDSR DIVISOR` in both phases (R115, R184: their test is of the table alone).  That a `CUR` outside
the store, which no run reaches, is no current table is the model's choice (log entry 4). -/
def Obligations.NoTableIsReported : Prop :=
  ∀ (s : State), s.hasTable = false →
    (∀ i, exec (.rdtab i) s = .next { s with rspPort := some { status := .errNoTable, payload := none } }) ∧
    exec .rdsrDivisor s = .next { s with rspPort := some { status := .errNoTable, payload := none } } ∧
    (s.phase = .idle → ∀ o,
      exec (.start o) s = .next { s with rspPort := some { status := .errNoTable, payload := none } })

/-! ### `START`, `BYTE`, `FINISH` (41_accumulator.md) -/

/-- `START o` in `IDLE` with a current table sets `REG` to `0xFFFFFFFF`, keeps `o` and opens a computation; `o` is not
compared with the table's orientation (R131, R166). -/
def Obligations.StartOpensAComputation : Prop :=
  ∀ (s : State) (o : Orientation), s.phase = .idle → s.hasTable = true →
    exec (.start o) s =
      .next { s with
        reg := some 0xFFFFFFFF#32, accOrient := o, phase := .active
        rspPort := some { status := .ok, payload := none } }

/-- `START` while a computation is in progress is refused, and the computation goes on untouched (R132). -/
def Obligations.StartRefusedDuringComputation : Prop :=
  ∀ (s : State) (o : Orientation), s.phase = .active →
    exec (.start o) s = .next { s with rspPort := some { status := .errSeq, payload := none } }

/-- `BYTE b` in a Reflected computation: the index is `REG[7:0] ^ b`, the new value `T[index] ^ (REG >> 8)`, and nothing
else changes (R133, R134, R135). -/
def Obligations.ByteFoldsReflected : Prop :=
  ∀ (s : State) (b : Byte) (r : Word),
    s.phase = .active → s.reg = some r → s.accOrient = .reflected →
    exec (.byte b) s =
      .next { s with
        reg := some (s.tabRead s.cur (r.extractLsb' 0 8 ^^^ b) ^^^ (r >>> 8))
        rspPort := some { status := .ok, payload := none } }

/-- `BYTE b` in a Normal computation: the index is `REG[31:24] ^ b`, the new value `(REG << 8) ^ T[index]`, and nothing
else changes (R133, R134, R136). -/
def Obligations.ByteFoldsNormal : Prop :=
  ∀ (s : State) (b : Byte) (r : Word),
    s.phase = .active → s.reg = some r → s.accOrient = .normal →
    exec (.byte b) s =
      .next { s with
        reg := some ((r <<< 8) ^^^ s.tabRead s.cur (r.extractLsb' 24 8 ^^^ b))
        rspPort := some { status := .ok, payload := none } }

/-- `BYTE` completes in every state in `ACTIVE`, whatever the byte, `REG` and the table hold, and writes `REG` alone
(R133, R206). -/
def Obligations.ByteCompletesInActive : Prop :=
  ∀ (s : State) (b : Byte), s.phase = .active →
    ∃ v, exec (.byte b) s =
      .next { s with reg := some v, rspPort := some { status := .ok, payload := none } }

/-- `FINISH` in `ACTIVE` returns the bitwise complement of `REG`, ends the computation and leaves `REG` without a value
(R140, R40). -/
def Obligations.FinishReturnsTheComplement : Prop :=
  ∀ (s : State) (r : Word), s.phase = .active → s.reg = some r →
    exec .finish s =
      .next { s with phase := .idle, reg := none, rspPort := some { status := .ok, payload := some (~~~ r) } }

/-- `BYTE`, `FINISH` and `FAIL` in `IDLE` are answered `ERR_SEQ` and change nothing (R204). -/
def Obligations.NoComputationIsReported : Prop :=
  ∀ (s : State), s.phase = .idle →
    (∀ b, exec (.byte b) s = .next { s with rspPort := some { status := .errSeq, payload := none } }) ∧
    exec .finish s = .next { s with rspPort := some { status := .errSeq, payload := none } } ∧
    (∀ k, exec (.fail k) s = .next { s with rspPort := some { status := .errSeq, payload := none } })

/-- `START o`, any words that do not end the computation (bytes, table and status reads, refused and malformed
commands), `FINISH`: the last response is `OK` with the checksum of the bytes delivered, over the table current at
`START`, in orientation `o`; the store is untouched (R141, R166). -/
def Obligations.ComputationReturnsTheChecksum : Prop :=
  ∀ (s : State) (o : Orientation) (ws : List CmdWord),
    s.phase = .idle → s.hasTable = true → (∀ w ∈ ws, endsComputation w = false) →
    ∃ t rs, runWords (encode (.start o) :: (ws ++ [encode .finish])) s = some t ∧
      t.observed = s.observed ++ rs ++
        [{ status := .ok, payload := some (crc (deliveredBytes ws) s.currentTable o) }] ∧
      rs.length = ws.length + 1 ∧ t.phase = .idle ∧ t.reg = none ∧ SameStore s t

/-- Determinism: what a computation returns depends on nothing but the current tag, the `START` orientation and the bytes
(R146, R11). -/
def Obligations.ChecksumDependsOnTagOrientationAndBytes : Prop :=
  ∀ (s s' t t' : State) (o : Orientation) (ws ws' : List CmdWord),
    s.Inv → s'.Inv → s.phase = .idle → s'.phase = .idle → s.hasTable = true → s'.hasTable = true →
    s.slotTag s.cur = s'.slotTag s'.cur →
    (∀ w ∈ ws, endsComputation w = false) → (∀ w ∈ ws', endsComputation w = false) →
    deliveredBytes ws = deliveredBytes ws' →
    runWords (encode (.start o) :: (ws ++ [encode .finish])) s = some t →
    runWords (encode (.start o) :: (ws' ++ [encode .finish])) s' = some t' →
    t.observed.getLast? = t'.observed.getLast? ∧ t.observed.getLast?.isSome = true

/-- The empty input: `START o` then `FINISH` returns 0 with status `OK`, for every table and both orientations (R143). -/
def Obligations.EmptyInputGivesZero : Prop :=
  ∀ (s : State) (o : Orientation), s.phase = .idle → s.hasTable = true →
    ∃ t, runWords [encode (.start o), encode .finish] s = some t ∧
      t.observed = s.observed ++ [{ status := .ok, payload := none }, { status := .ok, payload := some 0#32 }]

/-- Four bytes `0xFF` give the checksum `0xFFFFFFFF` over every table, matched or not (R139). -/
def Obligations.FourOnesBytesGiveAllOnes : Prop :=
  ∀ (d : Word) (o a : Orientation), crc [0xFF#8, 0xFF#8, 0xFF#8, 0xFF#8] (tableOf d o) a = 0xFFFFFFFF#32

/-- The known value of the source and the derived one beside it: the checksum of the bytes of "123456789" (R147). -/
def Obligations.KnownChecksums : Prop :=
  crc [0x31#8, 0x32#8, 0x33#8, 0x34#8, 0x35#8, 0x36#8, 0x37#8, 0x38#8, 0x39#8]
    (tableOf 0xEDB88320#32 .reflected) .reflected = 0xCBF43926#32 ∧
  crc [0x31#8, 0x32#8, 0x33#8, 0x34#8, 0x35#8, 0x36#8, 0x37#8, 0x38#8, 0x39#8]
    (tableOf 0x04C11DB7#32 .normal) .normal = 0xFC891918#32

/-! ### `FAIL`, `RDSR`, the reserved opcodes (43_system_commands.md) -/

/-- `FAIL k` in `ACTIVE` ends the computation with the failure's status and no payload; `REG` holds no value any more,
and a `FINISH` after it is refused (R181, R201, R202). -/
def Obligations.FailEndsWithoutAChecksum : Prop :=
  ∀ (s : State) (k : FailKind), s.phase = .active →
    ∃ t, exec (.fail k) s = .next t ∧
      t = { s with
        phase := .idle, reg := none
        rspPort := some
          { status := (match k with
              | .notFound => .errNotFound
              | .ioError => .errIo)
            payload := none } } ∧
      exec .finish t = .next { t with rspPort := some { status := .errSeq, payload := none } }

/-- `RDSR STATUS` returns the word whose bits R34 lists, in both phases, and writes nothing (R184, R34). -/
def Obligations.StatusWordBits : Prop :=
  ∀ s : State, ∃ v : Word,
    exec .rdsrStatus s = .next { s with rspPort := some { status := .ok, payload := some v } } ∧
    (v.getLsbD 0 = true ↔ s.phase = .active) ∧
    (v.getLsbD 1 = true ↔ s.accOrient = .normal) ∧
    (v.getLsbD 2 = true ↔ s.slotValid s.cur = true) ∧
    (v.getLsbD 3 = true ↔ s.slotValid s.cur = true ∧ (s.slotTag s.cur).orientation = .normal) ∧
    v.extractLsb' 4 28 = 0#28

/-- `RDSR DIVISOR` returns the current tag's divisor and `RDSR GENCOUNT` the count; both write nothing (R184, R35). -/
def Obligations.DivisorAndCountReads : Prop :=
  ∀ s : State,
    (s.hasTable = true → exec .rdsrDivisor s =
      .next { s with rspPort := some { status := .ok, payload := some (s.slotTag s.cur).divisor } }) ∧
    exec .rdsrGencount s = .next { s with rspPort := some { status := .ok, payload := some s.genCount } }

/-- Every word with a reserved opcode is answered `ERR_ILLEGAL` in either phase and changes nothing, the all-zero word
among them (R185). -/
def Obligations.ReservedOpcodesAreIllegal : Prop :=
  (∀ (w : CmdWord) (s : State), opField w = 0x0#4 ∨ 8 ≤ (opField w).toNat →
    execWord w s = .next { s with rspPort := some { status := .errIllegal, payload := none } }) ∧
  opField 0x0000000000#40 = 0x0#4

/-- The same of the two instructions the reserved opcodes decode to: each completes in every state (R185). -/
def Obligations.ReservedInstructionsComplete : Prop :=
  ∀ (s : State) (op : BitVec 4) (rest : BitVec 36),
    exec (.reservedOp0 rest) s = .next { s with rspPort := some { status := .errIllegal, payload := none } } ∧
    exec (.reservedOp8F op rest) s = .next { s with rspPort := some { status := .errIllegal, payload := none } }

/-! ### Whole-machine rules -/

/-- Acceptance by phase: for each command, the status it is answered with in each phase, in every state that meets the
invariant (R206). -/
def Obligations.AcceptanceByPhase : Prop :=
  ∀ (s : State) (i : Instr), s.Inv →
    ∃ t r, exec i s = .next t ∧ t.rspPort = some r ∧
      r.status =
        match i, s.phase with
        | .build _ _, .idle => .ok
        | .build _ _, .active => .errSeq
        | .rdtab _, .idle => if s.hasTable then .ok else .errNoTable
        | .rdtab _, .active => .ok
        | .start _, .idle => if s.hasTable then .ok else .errNoTable
        | .start _, .active => .errSeq
        | .byte _, .idle => .errSeq
        | .byte _, .active => .ok
        | .finish, .idle => .errSeq
        | .finish, .active => .ok
        | .fail _, .idle => .errSeq
        | .fail .notFound, .active => .errNotFound
        | .fail .ioError, .active => .errIo
        | .rdsrStatus, _ => .ok
        | .rdsrGencount, _ => .ok
        | .rdsrDivisor, .idle => if s.hasTable then .ok else .errNoTable
        | .rdsrDivisor, .active => .ok
        | .reservedOp0 _, _ => .errIllegal
        | .reservedOp8F _ _, _ => .errIllegal

/-- A protocol refusal changes nothing but the response port, and a Byte Source failure changes exactly `PHASE` and
voids `REG` (R211, R208). -/
def Obligations.ErrorsChangeNothingElse : Prop :=
  ∀ (w : CmdWord) (s t : State) (r : Response), execWord w s = .next t → t.rspPort = some r →
    ((r.status = .errIllegal ∨ r.status = .errSeq ∨ r.status = .errNoTable) →
      t = { s with rspPort := some r }) ∧
    ((r.status = .errNotFound ∨ r.status = .errIo) →
      t = { s with phase := .idle, reg := none, rspPort := some r })

/-- The phase changes only as R26 lists: to `ACTIVE` by a `START` that finds a current table, to `IDLE` by `FINISH`, by
`FAIL` or by reset. -/
def Obligations.PhaseTransitions : Prop :=
  ∀ s t : State, step s = .next t → t.phase ≠ s.phase →
    (s.phase = .idle ∧ t.phase = .active ∧ s.hasTable = true ∧
      ∃ w o, s.acceptable = some w ∧ decode w = .instr (.start o)) ∨
    (s.phase = .active ∧ t.phase = .idle ∧
      ((∃ w, s.acceptable = some w ∧ (decode w = .instr .finish ∨ ∃ k, decode w = .instr (.fail k))) ∨
       (s.acceptable = none ∧ s.host.head? = some .reset)))

/-- The table store, `CUR`, `FILL_PTR` and `GEN_COUNT` are written by `BUILD` alone, and never during a computation
(R28, R27, R38). -/
def Obligations.OnlyBuildInIdleWritesTheStore : Prop :=
  ∀ (w : CmdWord) (s t : State), execWord w s = .next t → ¬ SameStore s t →
    s.phase = .idle ∧ ∃ o d, decode w = .instr (.build o d)

/-- `REG` is returned by no command: only the answer of `FINISH` depends on the value it holds (R21).  In particular
`FAIL` returns no function of it (R181). -/
def Obligations.RegisterShowsOnlyInFinish : Prop :=
  ∀ (i : Instr) (s t t' : State) (v : Option Word), i ≠ .finish →
    exec i s = .next t → exec i { s with reg := v } = .next t' → t.rspPort = t'.rspPort

/-! ### Frames -/

/-- What the table and status reads and the reserved opcodes leave unchanged: everything but the response port (R56,
R115, R184, R185). -/
def Obligations.FrameOfReadsAndReserved : Prop :=
  ∀ (i : Instr) (s t : State),
    (match i with
      | .rdtab _ | .rdsrStatus | .rdsrDivisor | .rdsrGencount | .reservedOp0 _ | .reservedOp8F _ _ => True
      | _ => False) →
    exec i s = .next t →
    SameCore s t ∧ SameHost s t ∧ ∀ k j, t.tabRead k j = s.tabRead k j

/-- What the Accumulator's commands and `FAIL` leave unchanged: the table store and its registers, every entry of it,
`DREG`, `IDX`, `RND`, and the host's side; `BYTE` also `PHASE`, `ACC_ORIENT`; `FINISH` and `FAIL` also `ACC_ORIENT` (R131,
R133, R140, R181). -/
def Obligations.FrameOfAccumulatorCommands : Prop :=
  ∀ (i : Instr) (s t : State),
    (match i with
      | .start _ | .byte _ | .finish | .fail _ => True
      | _ => False) →
    exec i s = .next t →
    SameStore s t ∧ SameHost s t ∧ t.gen = s.gen ∧ (∀ k j, t.tabRead k j = s.tabRead k j) ∧
    ((∃ b, i = .byte b) → t.phase = s.phase ∧ t.accOrient = s.accOrient) ∧
    ((i = .finish ∨ ∃ k, i = .fail k) → t.accOrient = s.accOrient)

/-- What `BUILD` leaves unchanged: `REG`, `PHASE`, `ACC_ORIENT`, the number of slots, the host's side, and every entry, tag
and valid bit of every slot but the one `FILL_PTR` named; on a hit that one too (R109). -/
def Obligations.FrameOfBuild : Prop :=
  ∀ (o : Orientation) (d : Word) (s t : State), exec (.build o d) s = .next t →
    t.reg = s.reg ∧ t.phase = s.phase ∧ t.accOrient = s.accOrient ∧ t.slots.length = s.slots.length ∧ SameHost s t ∧
    (∀ k, k ≠ s.fillPtr → t.slotValid k = s.slotValid k ∧ t.slotTag k = s.slotTag k ∧
      ∀ j, t.tabRead k j = s.tabRead k j) ∧
    ((∃ k, s.slotValid k = true ∧ s.slotTag k = { divisor := d, orientation := o }) →
      t.slots = s.slots ∧ t.fillPtr = s.fillPtr ∧ t.genCount = s.genCount ∧ t.gen = s.gen)
end

