-- ==== Sys2Proof/Laws/State.lean ====
section
/-! SUPPORT. One lemma per field per update of `State`, each true by `rfl`, so that no proof unfolds a record update;
and what a read sees after an update that leaves the store alone. -/

namespace Sys2Proof.Machine

/-! ### `respond` -/

@[simp] theorem State.respond_reg (s : State) (st : Status) (v : Option Word) : (s.respond st v).reg = s.reg := rfl
@[simp] theorem State.respond_gen (s : State) (st : Status) (v : Option Word) : (s.respond st v).gen = s.gen := rfl
@[simp] theorem State.respond_phase (s : State) (st : Status) (v : Option Word) : (s.respond st v).phase = s.phase := rfl
@[simp] theorem State.respond_accOrient (s : State) (st : Status) (v : Option Word) : (s.respond st v).accOrient = s.accOrient := rfl
@[simp] theorem State.respond_slots (s : State) (st : Status) (v : Option Word) : (s.respond st v).slots = s.slots := rfl
@[simp] theorem State.respond_cur (s : State) (st : Status) (v : Option Word) : (s.respond st v).cur = s.cur := rfl
@[simp] theorem State.respond_fillPtr (s : State) (st : Status) (v : Option Word) : (s.respond st v).fillPtr = s.fillPtr := rfl
@[simp] theorem State.respond_genCount (s : State) (st : Status) (v : Option Word) : (s.respond st v).genCount = s.genCount := rfl
@[simp] theorem State.respond_cmdPort (s : State) (st : Status) (v : Option Word) : (s.respond st v).cmdPort = s.cmdPort := rfl
@[simp] theorem State.respond_rspPort (s : State) (st : Status) (v : Option Word) : (s.respond st v).rspPort = some ⟨st, v⟩ := rfl
@[simp] theorem State.respond_host (s : State) (st : Status) (v : Option Word) : (s.respond st v).host = s.host := rfl
@[simp] theorem State.respond_observed (s : State) (st : Status) (v : Option Word) : (s.respond st v).observed = s.observed := rfl

/-! ### `writeReg` -/

@[simp] theorem State.writeReg_reg (s : State) (v : Word) : (s.writeReg v).reg = some v := rfl
@[simp] theorem State.writeReg_gen (s : State) (v : Word) : (s.writeReg v).gen = s.gen := rfl
@[simp] theorem State.writeReg_phase (s : State) (v : Word) : (s.writeReg v).phase = s.phase := rfl
@[simp] theorem State.writeReg_accOrient (s : State) (v : Word) : (s.writeReg v).accOrient = s.accOrient := rfl
@[simp] theorem State.writeReg_slots (s : State) (v : Word) : (s.writeReg v).slots = s.slots := rfl
@[simp] theorem State.writeReg_cur (s : State) (v : Word) : (s.writeReg v).cur = s.cur := rfl
@[simp] theorem State.writeReg_fillPtr (s : State) (v : Word) : (s.writeReg v).fillPtr = s.fillPtr := rfl
@[simp] theorem State.writeReg_genCount (s : State) (v : Word) : (s.writeReg v).genCount = s.genCount := rfl
@[simp] theorem State.writeReg_cmdPort (s : State) (v : Word) : (s.writeReg v).cmdPort = s.cmdPort := rfl
@[simp] theorem State.writeReg_rspPort (s : State) (v : Word) : (s.writeReg v).rspPort = s.rspPort := rfl
@[simp] theorem State.writeReg_host (s : State) (v : Word) : (s.writeReg v).host = s.host := rfl
@[simp] theorem State.writeReg_observed (s : State) (v : Word) : (s.writeReg v).observed = s.observed := rfl

/-! ### `openComputation` -/

@[simp] theorem State.openComputation_reg (s : State) (v : Word) (o : Orientation) : (s.openComputation v o).reg = some v := rfl
@[simp] theorem State.openComputation_gen (s : State) (v : Word) (o : Orientation) : (s.openComputation v o).gen = s.gen := rfl
@[simp] theorem State.openComputation_phase (s : State) (v : Word) (o : Orientation) : (s.openComputation v o).phase = .active := rfl
@[simp] theorem State.openComputation_accOrient (s : State) (v : Word) (o : Orientation) : (s.openComputation v o).accOrient = o := rfl
@[simp] theorem State.openComputation_slots (s : State) (v : Word) (o : Orientation) : (s.openComputation v o).slots = s.slots := rfl
@[simp] theorem State.openComputation_cur (s : State) (v : Word) (o : Orientation) : (s.openComputation v o).cur = s.cur := rfl
@[simp] theorem State.openComputation_fillPtr (s : State) (v : Word) (o : Orientation) : (s.openComputation v o).fillPtr = s.fillPtr := rfl
@[simp] theorem State.openComputation_genCount (s : State) (v : Word) (o : Orientation) : (s.openComputation v o).genCount = s.genCount := rfl
@[simp] theorem State.openComputation_cmdPort (s : State) (v : Word) (o : Orientation) : (s.openComputation v o).cmdPort = s.cmdPort := rfl
@[simp] theorem State.openComputation_rspPort (s : State) (v : Word) (o : Orientation) : (s.openComputation v o).rspPort = s.rspPort := rfl
@[simp] theorem State.openComputation_host (s : State) (v : Word) (o : Orientation) : (s.openComputation v o).host = s.host := rfl
@[simp] theorem State.openComputation_observed (s : State) (v : Word) (o : Orientation) : (s.openComputation v o).observed = s.observed := rfl

/-! ### `endComputation` -/

@[simp] theorem State.endComputation_reg (s : State) : (s.endComputation).reg = none := rfl
@[simp] theorem State.endComputation_gen (s : State) : (s.endComputation).gen = s.gen := rfl
@[simp] theorem State.endComputation_phase (s : State) : (s.endComputation).phase = .idle := rfl
@[simp] theorem State.endComputation_accOrient (s : State) : (s.endComputation).accOrient = s.accOrient := rfl
@[simp] theorem State.endComputation_slots (s : State) : (s.endComputation).slots = s.slots := rfl
@[simp] theorem State.endComputation_cur (s : State) : (s.endComputation).cur = s.cur := rfl
@[simp] theorem State.endComputation_fillPtr (s : State) : (s.endComputation).fillPtr = s.fillPtr := rfl
@[simp] theorem State.endComputation_genCount (s : State) : (s.endComputation).genCount = s.genCount := rfl
@[simp] theorem State.endComputation_cmdPort (s : State) : (s.endComputation).cmdPort = s.cmdPort := rfl
@[simp] theorem State.endComputation_rspPort (s : State) : (s.endComputation).rspPort = s.rspPort := rfl
@[simp] theorem State.endComputation_host (s : State) : (s.endComputation).host = s.host := rfl
@[simp] theorem State.endComputation_observed (s : State) : (s.endComputation).observed = s.observed := rfl

/-! ### `modifySlot` -/

@[simp] theorem State.modifySlot_reg (s : State) (k : Nat) (f : Slot → Slot) : (s.modifySlot k f).reg = s.reg := rfl
@[simp] theorem State.modifySlot_gen (s : State) (k : Nat) (f : Slot → Slot) : (s.modifySlot k f).gen = s.gen := rfl
@[simp] theorem State.modifySlot_phase (s : State) (k : Nat) (f : Slot → Slot) : (s.modifySlot k f).phase = s.phase := rfl
@[simp] theorem State.modifySlot_accOrient (s : State) (k : Nat) (f : Slot → Slot) : (s.modifySlot k f).accOrient = s.accOrient := rfl
@[simp] theorem State.modifySlot_slots (s : State) (k : Nat) (f : Slot → Slot) : (s.modifySlot k f).slots = s.slots.modify k f := rfl
@[simp] theorem State.modifySlot_cur (s : State) (k : Nat) (f : Slot → Slot) : (s.modifySlot k f).cur = s.cur := rfl
@[simp] theorem State.modifySlot_fillPtr (s : State) (k : Nat) (f : Slot → Slot) : (s.modifySlot k f).fillPtr = s.fillPtr := rfl
@[simp] theorem State.modifySlot_genCount (s : State) (k : Nat) (f : Slot → Slot) : (s.modifySlot k f).genCount = s.genCount := rfl
@[simp] theorem State.modifySlot_cmdPort (s : State) (k : Nat) (f : Slot → Slot) : (s.modifySlot k f).cmdPort = s.cmdPort := rfl
@[simp] theorem State.modifySlot_rspPort (s : State) (k : Nat) (f : Slot → Slot) : (s.modifySlot k f).rspPort = s.rspPort := rfl
@[simp] theorem State.modifySlot_host (s : State) (k : Nat) (f : Slot → Slot) : (s.modifySlot k f).host = s.host := rfl
@[simp] theorem State.modifySlot_observed (s : State) (k : Nat) (f : Slot → Slot) : (s.modifySlot k f).observed = s.observed := rfl

/-! ### `selectSlot` -/

@[simp] theorem State.selectSlot_reg (s : State) (k : Nat) : (s.selectSlot k).reg = s.reg := rfl
@[simp] theorem State.selectSlot_gen (s : State) (k : Nat) : (s.selectSlot k).gen = s.gen := rfl
@[simp] theorem State.selectSlot_phase (s : State) (k : Nat) : (s.selectSlot k).phase = s.phase := rfl
@[simp] theorem State.selectSlot_accOrient (s : State) (k : Nat) : (s.selectSlot k).accOrient = s.accOrient := rfl
@[simp] theorem State.selectSlot_slots (s : State) (k : Nat) : (s.selectSlot k).slots = s.slots := rfl
@[simp] theorem State.selectSlot_cur (s : State) (k : Nat) : (s.selectSlot k).cur = k := rfl
@[simp] theorem State.selectSlot_fillPtr (s : State) (k : Nat) : (s.selectSlot k).fillPtr = s.fillPtr := rfl
@[simp] theorem State.selectSlot_genCount (s : State) (k : Nat) : (s.selectSlot k).genCount = s.genCount := rfl
@[simp] theorem State.selectSlot_cmdPort (s : State) (k : Nat) : (s.selectSlot k).cmdPort = s.cmdPort := rfl
@[simp] theorem State.selectSlot_rspPort (s : State) (k : Nat) : (s.selectSlot k).rspPort = s.rspPort := rfl
@[simp] theorem State.selectSlot_host (s : State) (k : Nat) : (s.selectSlot k).host = s.host := rfl
@[simp] theorem State.selectSlot_observed (s : State) (k : Nat) : (s.selectSlot k).observed = s.observed := rfl

/-! ### `countRun` -/

@[simp] theorem State.countRun_reg (s : State) (k : Nat) : (s.countRun k).reg = s.reg := rfl
@[simp] theorem State.countRun_gen (s : State) (k : Nat) : (s.countRun k).gen = s.gen := rfl
@[simp] theorem State.countRun_phase (s : State) (k : Nat) : (s.countRun k).phase = s.phase := rfl
@[simp] theorem State.countRun_accOrient (s : State) (k : Nat) : (s.countRun k).accOrient = s.accOrient := rfl
@[simp] theorem State.countRun_slots (s : State) (k : Nat) : (s.countRun k).slots = s.slots := rfl
@[simp] theorem State.countRun_cur (s : State) (k : Nat) : (s.countRun k).cur = k := rfl
@[simp] theorem State.countRun_fillPtr (s : State) (k : Nat) : (s.countRun k).fillPtr = (s.fillPtr + 1) % s.slots.length := rfl
@[simp] theorem State.countRun_genCount (s : State) (k : Nat) : (s.countRun k).genCount = bumpCount s.genCount := rfl
@[simp] theorem State.countRun_cmdPort (s : State) (k : Nat) : (s.countRun k).cmdPort = s.cmdPort := rfl
@[simp] theorem State.countRun_rspPort (s : State) (k : Nat) : (s.countRun k).rspPort = s.rspPort := rfl
@[simp] theorem State.countRun_host (s : State) (k : Nat) : (s.countRun k).host = s.host := rfl
@[simp] theorem State.countRun_observed (s : State) (k : Nat) : (s.countRun k).observed = s.observed := rfl

/-! ### `acceptCommand` -/

@[simp] theorem State.acceptCommand_reg (s : State) : (s.acceptCommand).reg = s.reg := rfl
@[simp] theorem State.acceptCommand_gen (s : State) : (s.acceptCommand).gen = s.gen := rfl
@[simp] theorem State.acceptCommand_phase (s : State) : (s.acceptCommand).phase = s.phase := rfl
@[simp] theorem State.acceptCommand_accOrient (s : State) : (s.acceptCommand).accOrient = s.accOrient := rfl
@[simp] theorem State.acceptCommand_slots (s : State) : (s.acceptCommand).slots = s.slots := rfl
@[simp] theorem State.acceptCommand_cur (s : State) : (s.acceptCommand).cur = s.cur := rfl
@[simp] theorem State.acceptCommand_fillPtr (s : State) : (s.acceptCommand).fillPtr = s.fillPtr := rfl
@[simp] theorem State.acceptCommand_genCount (s : State) : (s.acceptCommand).genCount = s.genCount := rfl
@[simp] theorem State.acceptCommand_cmdPort (s : State) : (s.acceptCommand).cmdPort = none := rfl
@[simp] theorem State.acceptCommand_rspPort (s : State) : (s.acceptCommand).rspPort = s.rspPort := rfl
@[simp] theorem State.acceptCommand_host (s : State) : (s.acceptCommand).host = s.host := rfl
@[simp] theorem State.acceptCommand_observed (s : State) : (s.acceptCommand).observed = s.observed := rfl

/-! ### `placeCommand` -/

@[simp] theorem State.placeCommand_reg (s : State) (w : CmdWord) : (s.placeCommand w).reg = s.reg := rfl
@[simp] theorem State.placeCommand_gen (s : State) (w : CmdWord) : (s.placeCommand w).gen = s.gen := rfl
@[simp] theorem State.placeCommand_phase (s : State) (w : CmdWord) : (s.placeCommand w).phase = s.phase := rfl
@[simp] theorem State.placeCommand_accOrient (s : State) (w : CmdWord) : (s.placeCommand w).accOrient = s.accOrient := rfl
@[simp] theorem State.placeCommand_slots (s : State) (w : CmdWord) : (s.placeCommand w).slots = s.slots := rfl
@[simp] theorem State.placeCommand_cur (s : State) (w : CmdWord) : (s.placeCommand w).cur = s.cur := rfl
@[simp] theorem State.placeCommand_fillPtr (s : State) (w : CmdWord) : (s.placeCommand w).fillPtr = s.fillPtr := rfl
@[simp] theorem State.placeCommand_genCount (s : State) (w : CmdWord) : (s.placeCommand w).genCount = s.genCount := rfl
@[simp] theorem State.placeCommand_cmdPort (s : State) (w : CmdWord) : (s.placeCommand w).cmdPort = some w := rfl
@[simp] theorem State.placeCommand_rspPort (s : State) (w : CmdWord) : (s.placeCommand w).rspPort = none := rfl
@[simp] theorem State.placeCommand_host (s : State) (w : CmdWord) : (s.placeCommand w).host = s.host := rfl
@[simp] theorem State.placeCommand_observed (s : State) (w : CmdWord) : (s.placeCommand w).observed = s.observed := rfl

/-! ### `resetEvent` -/

@[simp] theorem State.resetEvent_reg (s : State) : (s.resetEvent).reg = none := rfl
@[simp] theorem State.resetEvent_gen (s : State) : (s.resetEvent).gen = none := rfl
@[simp] theorem State.resetEvent_phase (s : State) : (s.resetEvent).phase = .idle := rfl
@[simp] theorem State.resetEvent_accOrient (s : State) : (s.resetEvent).accOrient = .reflected := rfl
@[simp] theorem State.resetEvent_slots (s : State) : (s.resetEvent).slots = List.replicate s.slots.length Slot.empty := rfl
@[simp] theorem State.resetEvent_cur (s : State) : (s.resetEvent).cur = 0 := rfl
@[simp] theorem State.resetEvent_fillPtr (s : State) : (s.resetEvent).fillPtr = 0 := rfl
@[simp] theorem State.resetEvent_genCount (s : State) : (s.resetEvent).genCount = 0 := rfl
@[simp] theorem State.resetEvent_cmdPort (s : State) : (s.resetEvent).cmdPort = s.cmdPort := rfl
@[simp] theorem State.resetEvent_rspPort (s : State) : (s.resetEvent).rspPort = none := rfl
@[simp] theorem State.resetEvent_host (s : State) : (s.resetEvent).host = s.host := rfl
@[simp] theorem State.resetEvent_observed (s : State) : (s.resetEvent).observed = s.observed := rfl

/-! ### Reads after an update that leaves the store alone -/

@[simp] theorem State.respond_slotValid (s : State) (st : Status) (v : Option Word) (j : Nat) : (s.respond st v).slotValid j = s.slotValid j := rfl
@[simp] theorem State.respond_slotTag (s : State) (st : Status) (v : Option Word) (j : Nat) : (s.respond st v).slotTag j = s.slotTag j := rfl
@[simp] theorem State.respond_tabRead (s : State) (st : Status) (v : Option Word) (j : Nat) (i : Byte) : (s.respond st v).tabRead j i = s.tabRead j i := rfl
@[simp] theorem State.respond_hasTable (s : State) (st : Status) (v : Option Word) : (s.respond st v).hasTable = s.hasTable := rfl
@[simp] theorem State.writeReg_slotValid (s : State) (v : Word) (j : Nat) : (s.writeReg v).slotValid j = s.slotValid j := rfl
@[simp] theorem State.writeReg_slotTag (s : State) (v : Word) (j : Nat) : (s.writeReg v).slotTag j = s.slotTag j := rfl
@[simp] theorem State.writeReg_tabRead (s : State) (v : Word) (j : Nat) (i : Byte) : (s.writeReg v).tabRead j i = s.tabRead j i := rfl
@[simp] theorem State.writeReg_hasTable (s : State) (v : Word) : (s.writeReg v).hasTable = s.hasTable := rfl
@[simp] theorem State.openComputation_slotValid (s : State) (v : Word) (o : Orientation) (j : Nat) : (s.openComputation v o).slotValid j = s.slotValid j := rfl
@[simp] theorem State.openComputation_slotTag (s : State) (v : Word) (o : Orientation) (j : Nat) : (s.openComputation v o).slotTag j = s.slotTag j := rfl
@[simp] theorem State.openComputation_tabRead (s : State) (v : Word) (o : Orientation) (j : Nat) (i : Byte) : (s.openComputation v o).tabRead j i = s.tabRead j i := rfl
@[simp] theorem State.openComputation_hasTable (s : State) (v : Word) (o : Orientation) : (s.openComputation v o).hasTable = s.hasTable := rfl
@[simp] theorem State.endComputation_slotValid (s : State) (j : Nat) : (s.endComputation).slotValid j = s.slotValid j := rfl
@[simp] theorem State.endComputation_slotTag (s : State) (j : Nat) : (s.endComputation).slotTag j = s.slotTag j := rfl
@[simp] theorem State.endComputation_tabRead (s : State) (j : Nat) (i : Byte) : (s.endComputation).tabRead j i = s.tabRead j i := rfl
@[simp] theorem State.endComputation_hasTable (s : State) : (s.endComputation).hasTable = s.hasTable := rfl
@[simp] theorem State.selectSlot_slotValid (s : State) (k : Nat) (j : Nat) : (s.selectSlot k).slotValid j = s.slotValid j := rfl
@[simp] theorem State.selectSlot_slotTag (s : State) (k : Nat) (j : Nat) : (s.selectSlot k).slotTag j = s.slotTag j := rfl
@[simp] theorem State.selectSlot_tabRead (s : State) (k : Nat) (j : Nat) (i : Byte) : (s.selectSlot k).tabRead j i = s.tabRead j i := rfl
@[simp] theorem State.countRun_slotValid (s : State) (k : Nat) (j : Nat) : (s.countRun k).slotValid j = s.slotValid j := rfl
@[simp] theorem State.countRun_slotTag (s : State) (k : Nat) (j : Nat) : (s.countRun k).slotTag j = s.slotTag j := rfl
@[simp] theorem State.countRun_tabRead (s : State) (k : Nat) (j : Nat) (i : Byte) : (s.countRun k).tabRead j i = s.tabRead j i := rfl
@[simp] theorem State.acceptCommand_slotValid (s : State) (j : Nat) : (s.acceptCommand).slotValid j = s.slotValid j := rfl
@[simp] theorem State.acceptCommand_slotTag (s : State) (j : Nat) : (s.acceptCommand).slotTag j = s.slotTag j := rfl
@[simp] theorem State.acceptCommand_tabRead (s : State) (j : Nat) (i : Byte) : (s.acceptCommand).tabRead j i = s.tabRead j i := rfl
@[simp] theorem State.acceptCommand_hasTable (s : State) : (s.acceptCommand).hasTable = s.hasTable := rfl
@[simp] theorem State.placeCommand_slotValid (s : State) (w : CmdWord) (j : Nat) : (s.placeCommand w).slotValid j = s.slotValid j := rfl
@[simp] theorem State.placeCommand_slotTag (s : State) (w : CmdWord) (j : Nat) : (s.placeCommand w).slotTag j = s.slotTag j := rfl
@[simp] theorem State.placeCommand_tabRead (s : State) (w : CmdWord) (j : Nat) (i : Byte) : (s.placeCommand w).tabRead j i = s.tabRead j i := rfl
@[simp] theorem State.placeCommand_hasTable (s : State) (w : CmdWord) : (s.placeCommand w).hasTable = s.hasTable := rfl

end Sys2Proof.Machine
end

