-- ==== Sys2Proof/Laws/TableGenerator.lean ====
section
/-! SUPPORT. What the generation run does (40_table_generator.md R108), said once: it leaves in its slot the table of
its config, and changes nothing else. -/

namespace Sys2Proof.Machine

/-- Entry by entry, what a slot reads after one entry is written. -/
theorem Slot.entry_setEntry (sl : Slot) (i j : Byte) (v : Word) :
    (sl.setEntry i v).entry j = if i = j then some v else sl.entry j := by
  simp only [Slot.entry, Slot.setEntry, Vector.getElem_set, BitVec.toNat_inj]

/-- The generation round on `DREG` is the round of R101 or R102. -/
theorem GenRun.round_dreg (d : Word) (o : Orientation) (g : GenRun) :
    (g.round ⟨d, o⟩).dreg =
      match o with
      | .reflected => roundReflected d g.dreg
      | .normal => roundNormal d g.dreg := by
  cases o <;> rfl

/-- Any number of rounds keeps `IDX` and iterates the division round on `DREG`. -/
theorem GenRun.rounds_dreg (d : Word) (o : Orientation) (n : Nat) (g : GenRun) :
    ((GenRun.round ⟨d, o⟩)^[n] g).idx = g.idx ∧
    ((GenRun.round ⟨d, o⟩)^[n] g).dreg =
      match o with
      | .reflected => (roundReflected d)^[n] g.dreg
      | .normal => (roundNormal d)^[n] g.dreg := by
  induction n generalizing g with
  | zero => cases o <;> exact ⟨rfl, rfl⟩
  | succ n ih =>
    simp only [Function.iterate_succ, Function.comp_apply]
    refine ⟨(ih _).1, (ih _).2.trans ?_⟩
    cases o <;> rfl

/-- Rounds on the state are rounds on the run it holds. -/
theorem State.genRounds (c : PolyConfig) (n : Nat) (s : State) (g : GenRun) (h : s.gen = some g) :
    (State.genRound c)^[n] s = { s with gen := some ((GenRun.round c)^[n] g) } := by
  induction n generalizing s g with
  | zero => simp [← h]
  | succ n ih =>
    simp only [Function.iterate_succ, Function.comp_apply]
    rw [ih (s.genRound c) (g.round c) (by simp [State.genRound, h])]
    rfl

/-- One pass of the outer loop: entry `i` of slot `k` becomes `divide_byte(i, d, o)`, and a run is left in progress. -/
theorem State.genEntry_eq (d : Word) (o : Orientation) (k : Nat) (i : Byte) (s : State) :
    ∃ g, s.genEntry ⟨d, o⟩ k i =
      { s with gen := some g, slots := s.slots.modify k (Slot.setEntry i (divideByte i d o)) } := by
  refine ⟨(GenRun.round ⟨d, o⟩)^[8] { dreg := loadByte o i, idx := i, rnd := 0 }, ?_⟩
  have hr := GenRun.rounds_dreg d o 8 { dreg := loadByte o i, idx := i, rnd := 0 }
  have hd : ((GenRun.round ⟨d, o⟩)^[8] { dreg := loadByte o i, idx := i, rnd := 0 }).dreg = divideByte i d o := by
    rw [hr.2]; cases o <;> rfl
  rw [State.genEntry, State.genRounds _ 8 _ _ rfl]
  simp only [State.genStore, State.tabWrite, State.modifySlot, State.genLoad, hr.1, hd]

/-- A slot after the first `n` passes of the outer loop. -/
def Slot.filledTo (d : Word) (o : Orientation) : Nat → Slot → Slot
  | 0, sl => sl
  | n + 1, sl => (Slot.filledTo d o n sl).setEntry (BitVec.ofNat 8 n) (divideByte (BitVec.ofNat 8 n) d o)

theorem Slot.filledTo_valid (d : Word) (o : Orientation) (n : Nat) (sl : Slot) :
    (Slot.filledTo d o n sl).valid = sl.valid ∧ (Slot.filledTo d o n sl).tag = sl.tag := by
  induction n with
  | zero => exact ⟨rfl, rfl⟩
  | succ n ih => exact ih

/-- After `n` passes every entry below `n` is the division result. -/
theorem Slot.filledTo_entry (d : Word) (o : Orientation) (n : Nat) (hn : n ≤ 256) (sl : Slot) (i : Byte)
    (hi : i.toNat < n) : (Slot.filledTo d o n sl).entry i = some (divideByte i d o) := by
  induction n with
  | zero => omega
  | succ n ih =>
    rw [Slot.filledTo, Slot.entry_setEntry]
    split
    · next h => rw [h]
    · next h =>
      refine ih (by omega) ?_
      have : i.toNat ≠ n := fun e => h (by rw [← e]; simp)
      omega

/-- The first `n` passes of the outer loop on the state: slot `k` filled so far, all else as it was but `DREG`, `IDX`
and `RND`. -/
theorem State.genEntries_eq (d : Word) (o : Orientation) (k n : Nat) (s : State) :
    ∃ g, State.genEntries ⟨d, o⟩ k n s =
      { s with gen := g, slots := s.slots.modify k (Slot.filledTo d o n) } := by
  induction n with
  | zero =>
    refine ⟨s.gen, ?_⟩
    have : Slot.filledTo d o 0 = id := rfl
    simp [State.genEntries, this]
  | succ n ih =>
    obtain ⟨g, hg⟩ := ih
    obtain ⟨g', hg'⟩ := State.genEntry_eq d o k (BitVec.ofNat 8 n) (State.genEntries ⟨d, o⟩ k n s)
    refine ⟨some g', ?_⟩
    rw [State.genEntries, hg', hg]
    simp only [List.modify_modify_eq]
    rfl

/-- What a run of `n` passes leaves in its slot. -/
def Slot.builtTo (d : Word) (o : Orientation) (n : Nat) (sl : Slot) : Slot :=
  { Slot.filledTo d o n { sl with valid := false, tag := none } with valid := true, tag := some ⟨d, o⟩ }

/-- What a generation run leaves in its slot. -/
abbrev Slot.built (d : Word) (o : Orientation) (sl : Slot) : Slot := Slot.builtTo d o 256 sl

theorem Slot.builtTo_entry (d : Word) (o : Orientation) (n : Nat) (hn : n ≤ 256) (sl : Slot) (i : Byte)
    (hi : i.toNat < n) : (Slot.builtTo d o n sl).entry i = some (tableOf d o i) :=
  Slot.filledTo_entry d o n hn _ i hi

@[simp] theorem Slot.built_valid (d : Word) (o : Orientation) (sl : Slot) : (Slot.built d o sl).valid = true := rfl

@[simp] theorem Slot.built_tag (d : Word) (o : Orientation) (sl : Slot) : (Slot.built d o sl).tag = some ⟨d, o⟩ := rfl

@[simp] theorem Slot.built_entry (d : Word) (o : Orientation) (sl : Slot) (i : Byte) :
    (Slot.built d o sl).entry i = some (tableOf d o i) :=
  Slot.builtTo_entry d o 256 (le_refl _) sl i i.isLt

theorem State.generationRun_to (d : Word) (o : Orientation) (k n : Nat) (s : State) :
    State.genFinish ⟨d, o⟩ k (State.genEntries ⟨d, o⟩ k n (s.genBegin k)) =
      { s with gen := none, slots := s.slots.modify k (Slot.builtTo d o n) } := by
  obtain ⟨g, hg⟩ := State.genEntries_eq d o k n (s.genBegin k)
  rw [State.genFinish, hg]
  simp only [State.modifySlot, State.genBegin, List.modify_modify_eq]
  rfl

/-- THE generation run, whole: its slot holds the table of its config, `DREG`, `IDX` and `RND` hold nothing, and
nothing else changes. -/
theorem State.generationRun_eq (d : Word) (o : Orientation) (k : Nat) (s : State) :
    s.generationRun ⟨d, o⟩ k = { s with gen := none, slots := s.slots.modify k (Slot.built d o) } :=
  State.generationRun_to d o k 256 s

end Sys2Proof.Machine
end

