-- ==== Sys2Proof/Laws/Accumulator.lean ====
section
/-! SUPPORT. The data path's small lemmas: the index of a byte update in each orientation, the division as eight rounds,
and a round whose tested bit is 0. -/

namespace Sys2Proof.Machine

theorem divideByte_reflected (b : Byte) (d : Word) :
    divideByte b d .reflected = (roundReflected d)^[8] (zext32 b) := rfl

theorem divideByte_normal (b : Byte) (d : Word) :
    divideByte b d .normal = (roundNormal d)^[8] (zext32 b <<< 24) := rfl

/-- A Reflected round on a register whose bit 0 is 0 only shifts. -/
theorem roundReflected_of_bit_zero {d r r' : Word} (h : r.getLsbD 0 = false) (e : r >>> 1 = r') :
    roundReflected d r = r' := by
  rw [roundReflected, h, e]; rfl

/-- A Normal round on a register whose bit 31 is 0 only shifts. -/
theorem roundNormal_of_bit_zero {d r r' : Word} (h : r.getLsbD 31 = false) (e : r <<< 1 = r') :
    roundNormal d r = r' := by
  rw [roundNormal, h, e]; rfl

/-- The low eight bits of a register, each selected by the mask of R134. -/
theorem mask8_getLsbD (i : Nat) (h : i < 8) : (0xFF#32).getLsbD i = true := by interval_cases i <;> rfl

/-- The Reflected index: the register's lowest byte meets the input byte. -/
theorem accIndex_reflected (r : Word) (b : Byte) : accIndex r b .reflected = r.extractLsb' 0 8 ^^^ b := by
  apply BitVec.eq_of_getLsbD_eq
  intro i hi
  simp only [accIndex, indexTerm, zext32]
  rw [BitVec.getLsbD_setWidth, BitVec.getLsbD_and, BitVec.getLsbD_xor, mask8_getLsbD i hi, BitVec.getLsbD_xor,
    BitVec.getLsbD_setWidth]
  simp [hi, show i < 32 by omega]

/-- The Normal index: the register's highest byte meets the input byte. -/
theorem accIndex_normal (r : Word) (b : Byte) : accIndex r b .normal = r.extractLsb' 24 8 ^^^ b := by
  apply BitVec.eq_of_getLsbD_eq
  intro i hi
  simp only [accIndex, indexTerm, zext32]
  rw [BitVec.getLsbD_setWidth, BitVec.getLsbD_and, BitVec.getLsbD_xor, mask8_getLsbD i hi, BitVec.getLsbD_xor,
    BitVec.getLsbD_setWidth]
  simp [hi, show i < 32 by omega]

end Sys2Proof.Machine
end

