-- ==== Sys2Proof/Laws/Decode.lean ====
section
/-! SUPPORT. The fields of a command word (30_encoding.md R72) and what the decoder and the opcode table ask of them. -/

namespace Sys2Proof

/-! ### A word is its fields -/

theorem packWord_getLsbD (op : BitVec 4) (o : BitVec 1) (d : Word) (i : Nat) :
    (packWord op o d).getLsbD i =
      if i < 32 then d.getLsbD i else if i = 32 then o.getLsbD 0
      else if i < 36 then false else op.getLsbD (i - 36) := by
  have h : (packWord op o d).getLsbD i = BitVec.getLsbD (w := 4 + 3 + 1 + 32) (op ++ 0#3 ++ o ++ d) i := rfl
  rw [h, BitVec.getLsbD_append, BitVec.getLsbD_append, BitVec.getLsbD_append]
  split
  · rfl
  · split
    · next h1 h2 =>
      have : i = 32 := by omega
      simp [this]
    · split
      · next h1 h2 h3 => rw [if_neg (by omega), if_pos (by omega)]; simp
      · next h1 h2 h3 => rw [if_neg (by omega), if_neg (by omega), show i - 32 - 1 - 3 = i - 36 by omega]

@[simp] theorem opField_packWord (op : BitVec 4) (o : BitVec 1) (d : Word) : opField (packWord op o d) = op := by
  apply BitVec.eq_of_getLsbD_eq
  intro i hi
  rw [opField, BitVec.getLsbD_extractLsb', packWord_getLsbD, if_neg (by omega), if_neg (by omega), if_neg (by omega)]
  simp [hi]

@[simp] theorem rsvField_packWord (op : BitVec 4) (o : BitVec 1) (d : Word) : rsvField (packWord op o d) = 0#3 := by
  apply BitVec.eq_of_getLsbD_eq
  intro i hi
  rw [rsvField, BitVec.getLsbD_extractLsb', packWord_getLsbD, if_neg (by omega), if_neg (by omega), if_pos (by omega)]
  simp

@[simp] theorem oField_packWord (op : BitVec 4) (o : BitVec 1) (d : Word) : oField (packWord op o d) = o := by
  apply BitVec.eq_of_getLsbD_eq
  intro i hi
  have h0 : i = 0 := by omega
  rw [oField, BitVec.getLsbD_extractLsb', packWord_getLsbD, if_neg (by omega), if_pos (by omega)]
  simp [h0]

@[simp] theorem dataField_packWord (op : BitVec 4) (o : BitVec 1) (d : Word) : dataField (packWord op o d) = d := by
  apply BitVec.eq_of_getLsbD_eq
  intro i hi
  rw [dataField, BitVec.getLsbD_extractLsb', packWord_getLsbD, if_pos (by omega)]
  simp [hi]

@[simp] theorem opField_append (op : BitVec 4) (rest : BitVec 36) : opField (op ++ rest) = op :=
  BitVec.extractLsb'_append_eq_left

@[simp] theorem restField_append (op : BitVec 4) (rest : BitVec 36) : restField (op ++ rest) = rest :=
  BitVec.extractLsb'_append_eq_right

/-- A word whose `RSV` is 0 is packed from its other fields. -/
theorem packWord_fields (w : CmdWord) (h : rsvField w = 0#3) : packWord (opField w) (oField w) (dataField w) = w := by
  apply BitVec.eq_of_getLsbD_eq
  intro i hi
  rw [packWord_getLsbD]
  split
  · simp [dataField, *]
  · split
    · simp [oField, *]
    · split
      · have := congrArg (fun x => x.getLsbD (i - 33)) h
        simp only [rsvField, BitVec.getLsbD_extractLsb'] at this
        rw [show 33 + (i - 33) = i by omega] at this
        simp at this
        rw [this (by omega)]
      · have : 36 + (i - 36) = i := by omega
        simp [opField, this]; omega

/-- A word is its opcode and the bits below it. -/
theorem op_append_rest (w : CmdWord) : opField w ++ restField w = w := by
  apply BitVec.eq_of_getLsbD_eq
  intro i hi
  simp only [opField, restField, BitVec.getLsbD_append, BitVec.getLsbD_extractLsb']
  split
  · simp [*]
  · have : 36 + (i - 36) = i := by omega
    simp [this]; omega

/-- Two words are equal when their four fields are. -/
theorem word_eq_of_fields (w v : CmdWord) (h1 : opField w = opField v) (h2 : rsvField w = rsvField v)
    (h3 : oField w = oField v) (h4 : dataField w = dataField v) : w = v := by
  apply BitVec.eq_of_getLsbD_eq
  intro i hi
  by_cases hd : i < 32
  · simpa [dataField, hd] using congrArg (fun x => x.getLsbD i) h4
  by_cases ho : i < 33
  · simpa [oField, show i - 32 < 1 by omega, show 32 + (i - 32) = i by omega] using
      congrArg (fun x => x.getLsbD (i - 32)) h3
  by_cases hr : i < 36
  · simpa [rsvField, show i - 33 < 3 by omega, show 33 + (i - 33) = i by omega] using
      congrArg (fun x => x.getLsbD (i - 33)) h2
  · simpa [opField, show i - 36 < 4 by omega, show 36 + (i - 36) = i by omega] using
      congrArg (fun x => x.getLsbD (i - 36)) h1

/-- A match and mask test is its four field tests. -/
theorem and_mask_eq_iff (w m v : CmdWord) :
    w &&& m = v ↔ opField w &&& opField m = opField v ∧ rsvField w &&& rsvField m = rsvField v ∧
      oField w &&& oField m = oField v ∧ dataField w &&& dataField m = dataField v := by
  constructor
  · intro h
    subst h
    simp only [opField, rsvField, oField, dataField, BitVec.extractLsb'_and, and_self]
  · rintro ⟨h1, h2, h3, h4⟩
    apply word_eq_of_fields <;>
      simpa only [opField, rsvField, oField, dataField, BitVec.extractLsb'_and] using by assumption

/-! ### The one-bit operands -/

@[simp] theorem Orientation.ofBit_bit (o : Orientation) : Orientation.ofBit o.bit = o := by cases o <;> rfl

@[simp] theorem FailKind.ofBit_bit (k : FailKind) : FailKind.ofBit k.bit = k := by cases k <;> rfl

@[simp] theorem Orientation.bit_ofBit (b : BitVec 1) : (Orientation.ofBit b).bit = b := by revert b; decide

@[simp] theorem FailKind.bit_ofBit (b : BitVec 1) : (FailKind.ofBit b).bit = b := by revert b; decide

/-! ### Must-be-zero bits of `DATA` -/

theorem append_extract (k m : Nat) (d : BitVec (k + m)) : d.extractLsb' m k ++ d.extractLsb' 0 m = d := by
  apply BitVec.eq_of_getLsbD_eq
  intro i hi
  rw [BitVec.getLsbD_append]
  split
  · simp [*]
  · have : m + (i - m) = i := by omega
    simp [this]; omega

theorem and_high_mask_eq_zero_iff (k m : Nat) (d : BitVec (k + m)) :
    d &&& (BitVec.allOnes k ++ 0#m) = 0#(k + m) ↔ d = 0#k ++ d.extractLsb' 0 m := by
  have key : d &&& (BitVec.allOnes k ++ 0#m) = 0#(k + m) ↔ d.extractLsb' m k = 0#k := by
    constructor
    · intro h
      apply BitVec.eq_of_getLsbD_eq
      intro i hi
      have := congrArg (fun x => x.getLsbD (m + i)) h
      simpa [BitVec.getLsbD_append, hi] using this
    · intro h
      rw [← append_extract k m d, BitVec.and_append, h]
      simp
  rw [key]
  constructor
  · intro h
    rw [← h]
    exact (append_extract k m d).symm
  · intro h
    rw [h]
    exact BitVec.extractLsb'_append_eq_left

theorem and_highMask24 (d : Word) : d &&& 0xFFFFFF00#32 = 0#32 ↔ d = 0#24 ++ d.extractLsb' 0 8 :=
  and_high_mask_eq_zero_iff 24 8 d

theorem and_highMask31 (d : Word) : d &&& 0xFFFFFFFE#32 = 0#32 ↔ d = 0#31 ++ d.extractLsb' 0 1 :=
  and_high_mask_eq_zero_iff 31 1 d

theorem and_highMask30 (d : Word) : d &&& 0xFFFFFFFC#32 = 0#32 ↔ d = 0#30 ++ d.extractLsb' 0 2 :=
  and_high_mask_eq_zero_iff 30 2 d

/-- A zero-extended field's value is the field's. -/
theorem toNat_zero_append (k m : Nat) (x : BitVec m) : ((0#k ++ x : BitVec (k + m))).toNat = x.toNat := by
  simp

/-- The unused bits of `DATA` are 0 exactly when its value fits in the bits that are used. -/
theorem and_high_mask_eq_zero_iff_lt (k m : Nat) (d : BitVec (k + m)) :
    d &&& (BitVec.allOnes k ++ 0#m) = 0#(k + m) ↔ d.toNat < 2 ^ m := by
  rw [and_high_mask_eq_zero_iff]
  constructor
  · intro h
    rw [h, toNat_zero_append]
    exact BitVec.isLt _
  · intro h
    apply BitVec.eq_of_toNat_eq
    rw [toNat_zero_append, BitVec.extractLsb'_toNat, Nat.shiftRight_zero, Nat.mod_eq_of_lt h]

theorem and_highMask24_iff_lt (d : Word) : d &&& 0xFFFFFF00#32 = 0#32 ↔ d.toNat < 256 :=
  and_high_mask_eq_zero_iff_lt 24 8 d

theorem and_highMask31_iff_lt (d : Word) : d &&& 0xFFFFFFFE#32 = 0#32 ↔ d.toNat < 2 :=
  and_high_mask_eq_zero_iff_lt 31 1 d

theorem and_highMask30_iff_lt (d : Word) : d &&& 0xFFFFFFFC#32 = 0#32 ↔ d.toNat < 4 :=
  and_high_mask_eq_zero_iff_lt 30 2 d

@[simp] theorem and_ones4 (x : BitVec 4) : x &&& 0xF#4 = x := BitVec.and_allOnes (w := 4)

@[simp] theorem and_ones3 (x : BitVec 3) : x &&& 0x7#3 = x := BitVec.and_allOnes (w := 3)

@[simp] theorem and_ones1 (x : BitVec 1) : x &&& 0x1#1 = x := BitVec.and_allOnes (w := 1)

@[simp] theorem and_ones32 (x : Word) : x &&& 0xFFFFFFFF#32 = x := BitVec.and_allOnes (w := 32)

/-! ### The rows of the opcode table, field by field -/

/-- Every instruction's row stands in the table. -/
theorem row_mem (i : Instr) : i.row ∈ opcodeTable := by
  cases i <;> simp [opcodeTable, Instr.row]

theorem selects_iff (r : OpcodeRow) (w : CmdWord) :
    r.selects w = true ↔ opField w &&& opField r.mask = opField r.value ∧
      rsvField w &&& rsvField r.mask = rsvField r.value ∧ oField w &&& oField r.mask = oField r.value ∧
      dataField w &&& dataField r.mask = dataField r.value := by
  rw [OpcodeRow.selects, beq_iff_eq, and_mask_eq_iff]

theorem selects_build (o : Orientation) (d : Word) (w : CmdWord) :
    (Instr.build o d).row.selects w = true ↔ opField w = 1#4 ∧ rsvField w = 0#3 := by
  refine (selects_iff ⟨"BUILD", 0x1000000000#40, 0xFE00000000#40⟩ w).trans ?_
  change opField w &&& 15#4 = 1#4 ∧ rsvField w &&& 7#3 = 0#3 ∧ oField w &&& 0#1 = 0#1 ∧ dataField w &&& 0#32 = 0#32 ↔ _
  simp

theorem selects_rdtab (i : Byte) (w : CmdWord) :
    (Instr.rdtab i).row.selects w = true ↔
      opField w = 2#4 ∧ rsvField w = 0#3 ∧ oField w = 0#1 ∧ dataField w &&& 0xFFFFFF00#32 = 0#32 := by
  refine (selects_iff ⟨"RDTAB", 0x2000000000#40, 0xFFFFFFFF00#40⟩ w).trans ?_
  change opField w &&& 15#4 = 2#4 ∧ rsvField w &&& 7#3 = 0#3 ∧ oField w &&& 1#1 = 0#1 ∧
    dataField w &&& 0xFFFFFF00#32 = 0#32 ↔ _
  simp

theorem selects_start (o : Orientation) (w : CmdWord) :
    (Instr.start o).row.selects w = true ↔ opField w = 3#4 ∧ rsvField w = 0#3 ∧ dataField w = 0#32 := by
  refine (selects_iff ⟨"START", 0x3000000000#40, 0xFEFFFFFFFF#40⟩ w).trans ?_
  change opField w &&& 15#4 = 3#4 ∧ rsvField w &&& 7#3 = 0#3 ∧ oField w &&& 0#1 = 0#1 ∧
    dataField w &&& 0xFFFFFFFF#32 = 0#32 ↔ _
  simp

theorem selects_byte (b : Byte) (w : CmdWord) :
    (Instr.byte b).row.selects w = true ↔
      opField w = 4#4 ∧ rsvField w = 0#3 ∧ oField w = 0#1 ∧ dataField w &&& 0xFFFFFF00#32 = 0#32 := by
  refine (selects_iff ⟨"BYTE", 0x4000000000#40, 0xFFFFFFFF00#40⟩ w).trans ?_
  change opField w &&& 15#4 = 4#4 ∧ rsvField w &&& 7#3 = 0#3 ∧ oField w &&& 1#1 = 0#1 ∧
    dataField w &&& 0xFFFFFF00#32 = 0#32 ↔ _
  simp

theorem selects_finish (w : CmdWord) :
    Instr.finish.row.selects w = true ↔
      opField w = 5#4 ∧ rsvField w = 0#3 ∧ oField w = 0#1 ∧ dataField w = 0#32 := by
  refine (selects_iff _ w).trans ?_
  change opField w &&& 15#4 = 5#4 ∧ rsvField w &&& 7#3 = 0#3 ∧ oField w &&& 1#1 = 0#1 ∧
    dataField w &&& 0xFFFFFFFF#32 = 0#32 ↔ _
  simp

theorem selects_fail (k : FailKind) (w : CmdWord) :
    (Instr.fail k).row.selects w = true ↔
      opField w = 6#4 ∧ rsvField w = 0#3 ∧ oField w = 0#1 ∧ dataField w &&& 0xFFFFFFFE#32 = 0#32 := by
  refine (selects_iff ⟨"FAIL", 0x6000000000#40, 0xFFFFFFFFFE#40⟩ w).trans ?_
  change opField w &&& 15#4 = 6#4 ∧ rsvField w &&& 7#3 = 0#3 ∧ oField w &&& 1#1 = 0#1 ∧
    dataField w &&& 0xFFFFFFFE#32 = 0#32 ↔ _
  simp

theorem selects_rdsrStatus (w : CmdWord) :
    Instr.rdsrStatus.row.selects w = true ↔
      opField w = 7#4 ∧ rsvField w = 0#3 ∧ oField w = 0#1 ∧ dataField w = 0#32 := by
  refine (selects_iff _ w).trans ?_
  change opField w &&& 15#4 = 7#4 ∧ rsvField w &&& 7#3 = 0#3 ∧ oField w &&& 1#1 = 0#1 ∧
    dataField w &&& 0xFFFFFFFF#32 = 0#32 ↔ _
  simp

theorem selects_rdsrDivisor (w : CmdWord) :
    Instr.rdsrDivisor.row.selects w = true ↔
      opField w = 7#4 ∧ rsvField w = 0#3 ∧ oField w = 0#1 ∧ dataField w = 1#32 := by
  refine (selects_iff _ w).trans ?_
  change opField w &&& 15#4 = 7#4 ∧ rsvField w &&& 7#3 = 0#3 ∧ oField w &&& 1#1 = 0#1 ∧
    dataField w &&& 0xFFFFFFFF#32 = 1#32 ↔ _
  simp

theorem selects_rdsrGencount (w : CmdWord) :
    Instr.rdsrGencount.row.selects w = true ↔
      opField w = 7#4 ∧ rsvField w = 0#3 ∧ oField w = 0#1 ∧ dataField w = 2#32 := by
  refine (selects_iff _ w).trans ?_
  change opField w &&& 15#4 = 7#4 ∧ rsvField w &&& 7#3 = 0#3 ∧ oField w &&& 1#1 = 0#1 ∧
    dataField w &&& 0xFFFFFFFF#32 = 2#32 ↔ _
  simp

theorem selects_reservedOp0 (rest : BitVec 36) (w : CmdWord) :
    (Instr.reservedOp0 rest).row.selects w = true ↔ opField w = 0#4 := by
  refine (selects_iff ⟨"RESERVED.OP0", 0x0000000000#40, 0xF000000000#40⟩ w).trans ?_
  change opField w &&& 15#4 = 0#4 ∧ rsvField w &&& 0#3 = 0#3 ∧ oField w &&& 0#1 = 0#1 ∧
    dataField w &&& 0#32 = 0#32 ↔ _
  simp

/-- An opcode of 8 and above is one whose top bit is 1. -/
theorem op_top_bit (op : BitVec 4) : op &&& 8#4 = 8#4 ↔ 8 ≤ op.toNat := by revert op; decide

theorem selects_reservedOp8F (op : BitVec 4) (rest : BitVec 36) (w : CmdWord) :
    (Instr.reservedOp8F op rest).row.selects w = true ↔ 8 ≤ (opField w).toNat := by
  refine (selects_iff ⟨"RESERVED.OP8_F", 0x8000000000#40, 0x8000000000#40⟩ w).trans ?_
  change opField w &&& 8#4 = 8#4 ∧ rsvField w &&& 0#3 = 0#3 ∧ oField w &&& 0#1 = 0#1 ∧
    dataField w &&& 0#32 = 0#32 ↔ _
  simp [op_top_bit]

end Sys2Proof
end

