-- ==== Sys2Proof/Laws/Ops.lean ====
section
/-! SUPPORT. What each shared operation does, said once: the answers, the table store's reads after a write, the hit
test, the miss, and the host's side of a step. -/

namespace Sys2Proof.Machine

/-! ### Answers -/

@[simp] theorem complete_eq_next (v : Option Word) (s t : State) : complete v s = .next t ↔ s.respond .ok v = t := by
  simp [complete]

@[simp] theorem refuse_eq_next (st : Status) (s t : State) : refuse st s = .next t ↔ s.respond st none = t := by
  simp [refuse]

/-! ### The table store after a change of one slot -/

theorem State.slotValid_modifySlot (s : State) (k : Nat) (f : Slot → Slot) (j : Nat) (h : k ≠ j) :
    (s.modifySlot k f).slotValid j = s.slotValid j := by
  simp [State.slotValid, State.modifySlot, h]

theorem State.slotTag_modifySlot (s : State) (k : Nat) (f : Slot → Slot) (j : Nat) (h : k ≠ j) :
    (s.modifySlot k f).slotTag j = s.slotTag j := by
  simp [State.slotTag, State.modifySlot, h]

theorem State.tabRead_modifySlot (s : State) (k : Nat) (f : Slot → Slot) (j : Nat) (i : Byte) (h : k ≠ j) :
    (s.modifySlot k f).tabRead j i = s.tabRead j i := by
  simp [State.tabRead, State.modifySlot, h]

/-- A read after a write of one entry of a slot that exists gives the value written. -/
theorem State.tabRead_tabWrite_same (s : State) (k : Nat) (i : Byte) (v : Word) (h : k < s.slots.length) :
    (s.tabWrite k i v).tabRead k i = v := by
  simp [State.tabRead, State.tabWrite, State.modifySlot, h, Slot.entry_setEntry]

/-- A write of one entry leaves every other entry alone. -/
theorem State.tabRead_tabWrite_other (s : State) (k j : Nat) (i i' : Byte) (v : Word) (h : k ≠ j ∨ i ≠ i') :
    (s.tabWrite k i v).tabRead j i' = s.tabRead j i' := by
  by_cases hk : k = j
  · subst hk
    have hi : i ≠ i' := h.resolve_left fun e => e rfl
    by_cases hl : k < s.slots.length
    · simp [State.tabRead, State.tabWrite, State.modifySlot, hl, Slot.entry_setEntry, hi]
    · simp [State.tabRead, State.tabWrite, State.modifySlot, hl]
  · exact State.tabRead_modifySlot s k _ j i' hk

theorem State.lt_of_slotValid {s : State} {k : Nat} (h : s.slotValid k = true) : k < s.slots.length := by
  by_contra hk
  simp [State.slotValid, List.getElem?_eq_none (Nat.le_of_not_lt hk)] at h

/-- A valid slot is one of the store's slots, and its `VALID` is 1. -/
theorem State.slot_of_slotValid {s : State} {k : Nat} (h : s.slotValid k = true) :
    ∃ sl, s.slots[k]? = some sl ∧ sl ∈ s.slots ∧ sl.valid = true := by
  have hk := State.lt_of_slotValid h
  refine ⟨s.slots[k], List.getElem?_eq_getElem hk, List.getElem_mem hk, ?_⟩
  simpa [State.slotValid, hk] using h

/-! ### The hit test -/

/-- A hit names a valid slot whose tag is the config. -/
theorem State.findTag_some {c : PolyConfig} {s : State} {k : Nat} (h : s.findTag c = some k) :
    s.slotValid k = true ∧ s.slotTag k = c := by
  have := List.find?_some h
  simpa using this

/-- A miss says that no valid slot's tag is the config. -/
theorem State.findTag_none {c : PolyConfig} {s : State} :
    s.findTag c = none ↔ ∀ k, s.slotValid k = true → s.slotTag k ≠ c := by
  simp only [State.findTag, List.find?_eq_none, List.mem_range, Bool.and_eq_true, decide_eq_true_eq, not_and]
  exact ⟨fun h k hk => h k (State.lt_of_slotValid hk) hk, fun h k _ hk => h k hk⟩

/-! ### The miss -/

/-- A miss whose slot exists: the run, then `CUR`, `FILL_PTR` and `GEN_COUNT`, then the answer. -/
theorem buildMiss_eq_next (d : Word) (o : Orientation) (s : State) (h : s.fillPtr < s.slots.length) :
    buildMiss ⟨d, o⟩ s =
      .next
        { s with
          gen := none
          slots := s.slots.modify s.fillPtr (Slot.built d o)
          cur := s.fillPtr
          fillPtr := (s.fillPtr + 1) % s.slots.length
          genCount := bumpCount s.genCount
          rspPort := some ⟨.ok, none⟩ } := by
  simp [buildMiss, h, State.generationRun_eq, complete, State.respond, State.countRun]

theorem bumpCount_toNat (g : Word) : (bumpCount g).toNat = min (g.toNat + 1) 0xFFFFFFFF := by
  rw [bumpCount, BitVec.toNat_ofNat, Nat.mod_eq_of_lt]
  omega

/-! ### What each command can answer -/

/-- `BUILD`: refused in `ACTIVE`; in `IDLE` a hit, a miss, or (with no such slot) a fault. -/
theorem execBuild_eq_next {o : Orientation} {d : Word} {s t : State} (h : execBuild o d s = .next t) :
    (s.phase = .active ∧ t = s.respond .errSeq none) ∨
    (s.phase = .idle ∧ ∃ k, s.findTag ⟨d, o⟩ = some k ∧ t = (s.selectSlot k).respond .ok none) ∨
    (s.phase = .idle ∧ s.findTag ⟨d, o⟩ = none ∧ s.fillPtr < s.slots.length ∧
      t = { s with
        gen := none
        slots := s.slots.modify s.fillPtr (Slot.built d o)
        cur := s.fillPtr
        fillPtr := (s.fillPtr + 1) % s.slots.length
        genCount := bumpCount s.genCount
        rspPort := some ⟨.ok, none⟩ }) := by
  rw [execBuild] at h
  split at h
  · next hp => exact .inl ⟨hp, ((refuse_eq_next _ _ _).1 h).symm⟩
  · next hp =>
    split at h
    · next k hk => exact .inr (.inl ⟨hp, k, hk, ((complete_eq_next _ _ _).1 h).symm⟩)
    · next hk =>
      by_cases hf : s.fillPtr < s.slots.length
      · rw [buildMiss_eq_next d o s hf] at h
        exact .inr (.inr ⟨hp, hk, hf, by simpa using h.symm⟩)
      · simp [buildMiss, hf] at h

/-- A command that is no `BUILD` keeps the table store and its registers, and the host's side. -/
theorem exec_store {i : Instr} {s t : State} (hi : ∀ o d, i ≠ .build o d) (h : exec i s = .next t) :
    t.slots = s.slots ∧ t.cur = s.cur ∧ t.fillPtr = s.fillPtr ∧ t.genCount = s.genCount ∧ t.gen = s.gen ∧
      t.cmdPort = s.cmdPort ∧ t.host = s.host ∧ t.observed = s.observed := by
  cases i with
  | build o d => exact absurd rfl (hi o d)
  | rdtab i =>
    simp only [exec, execRdtab] at h
    split at h <;> · simp at h; subst h; simp
  | start o =>
    simp only [exec, execStart] at h
    split at h
    · simp at h; subst h; simp
    · split at h <;> · simp at h; subst h; simp
  | byte b =>
    simp only [exec, execByte] at h
    split at h <;> · simp at h; subst h; simp
  | finish =>
    simp only [exec, execFinish] at h
    split at h <;> · simp at h; subst h; simp
  | fail k =>
    simp only [exec, execFail] at h
    split at h <;> · simp at h; subst h; simp
  | rdsrStatus => simp only [exec, execRdsrStatus, complete_eq_next] at h; subst h; simp
  | rdsrDivisor =>
    simp only [exec, execRdsrDivisor] at h
    split at h <;> · simp at h; subst h; simp
  | rdsrGencount => simp only [exec, execRdsrGencount, complete_eq_next] at h; subst h; simp
  | reservedOp0 rest => simp only [exec, execReservedOp0, refuse_eq_next] at h; subst h; simp
  | reservedOp8F op rest => simp only [exec, execReservedOp8F, refuse_eq_next] at h; subst h; simp

/-- A command that is no `BUILD`: everything it can do.  A refusal; a read; or one of the four commands of a computation. -/
theorem exec_eq_next {i : Instr} {s t : State} (hi : ∀ o d, i ≠ .build o d) (h : exec i s = .next t) :
    (∃ st, (st = .errSeq ∨ st = .errNoTable ∨ st = .errIllegal) ∧ t = s.respond st none) ∨
    (∃ v, ReturnsValue i ∧ i ≠ .finish ∧ t = s.respond .ok (some v)) ∨
    (∃ o, i = .start o ∧ s.phase = .idle ∧ s.hasTable = true ∧
      t = (s.openComputation crcInit o).respond .ok none) ∨
    (∃ b, i = .byte b ∧ s.phase = .active ∧
      t = (s.writeReg (accFold (s.tabRead s.cur) s.accOrient s.regValue b)).respond .ok none) ∨
    (i = .finish ∧ s.phase = .active ∧ t = s.endComputation.respond .ok (some (s.regValue ^^^ crcXorOut))) ∨
    (∃ k, i = .fail k ∧ s.phase = .active ∧ t = s.endComputation.respond (failStatus k) none) := by
  cases i with
  | build o d => exact absurd rfl (hi o d)
  | rdtab i =>
    simp only [exec, execRdtab] at h
    split at h <;> simp only [complete_eq_next, refuse_eq_next] at h <;> subst h
    · exact .inr (.inl ⟨_, trivial, by simp, rfl⟩)
    · exact .inl ⟨.errNoTable, by simp, rfl⟩
  | start o =>
    simp only [exec, execStart] at h
    split at h
    · simp only [refuse_eq_next] at h; subst h; exact .inl ⟨.errSeq, by simp, rfl⟩
    · next hp =>
      split at h <;> simp only [complete_eq_next, refuse_eq_next] at h <;> subst h
      · next hh => exact .inr (.inr (.inl ⟨o, rfl, hp, hh, rfl⟩))
      · exact .inl ⟨.errNoTable, by simp, rfl⟩
  | byte b =>
    simp only [exec, execByte] at h
    split at h <;> simp only [complete_eq_next, refuse_eq_next] at h <;> subst h
    · exact .inl ⟨.errSeq, by simp, rfl⟩
    · next hp => exact .inr (.inr (.inr (.inl ⟨b, rfl, hp, rfl⟩)))
  | finish =>
    simp only [exec, execFinish] at h
    split at h <;> simp only [complete_eq_next, refuse_eq_next] at h <;> subst h
    · exact .inl ⟨.errSeq, by simp, rfl⟩
    · next hp => exact .inr (.inr (.inr (.inr (.inl ⟨rfl, hp, rfl⟩))))
  | fail k =>
    simp only [exec, execFail] at h
    split at h
    · simp only [refuse_eq_next] at h; subst h; exact .inl ⟨.errSeq, by simp, rfl⟩
    · next hp => cases h; exact .inr (.inr (.inr (.inr (.inr ⟨k, rfl, hp, rfl⟩))))
  | rdsrStatus =>
    simp only [exec, execRdsrStatus, complete_eq_next] at h; subst h
    exact .inr (.inl ⟨_, trivial, by simp, rfl⟩)
  | rdsrDivisor =>
    simp only [exec, execRdsrDivisor] at h
    split at h <;> simp only [complete_eq_next, refuse_eq_next] at h <;> subst h
    · exact .inr (.inl ⟨_, trivial, by simp, rfl⟩)
    · exact .inl ⟨.errNoTable, by simp, rfl⟩
  | rdsrGencount =>
    simp only [exec, execRdsrGencount, complete_eq_next] at h; subst h
    exact .inr (.inl ⟨_, trivial, by simp, rfl⟩)
  | reservedOp0 rest =>
    simp only [exec, execReservedOp0, refuse_eq_next] at h; subst h; exact .inl ⟨.errIllegal, by simp, rfl⟩
  | reservedOp8F op rest =>
    simp only [exec, execReservedOp8F, refuse_eq_next] at h; subst h; exact .inl ⟨.errIllegal, by simp, rfl⟩

/-- The ports and the host play no part in an execution: changed before, they are changed the same after. -/
theorem exec_ports {i : Instr} {s t : State} (c : Option CmdWord) (r : Option Response) (hs : List HostAct)
    (ob : List Response) (h : exec i s = .next t) :
    exec i { s with cmdPort := c, rspPort := r, host := hs, observed := ob } =
      .next { t with cmdPort := c, host := hs, observed := ob } := by
  obtain ⟨reg, gen, phase, ao, sl, cu, fp, gc, cp, rp, ho, ob'⟩ := s
  cases i with
  | build o d =>
    cases phase with
    | active => cases h; rfl
    | idle =>
      replace h : execBuild o d ⟨reg, gen, .idle, ao, sl, cu, fp, gc, cp, rp, ho, ob'⟩ = .next t := h
      rcases execBuild_eq_next h with ⟨hp, -⟩ | ⟨-, k, hk, ht⟩ | ⟨-, hk, hf, ht⟩
      · cases hp
      · change (match State.findTag ⟨d, o⟩ ⟨reg, gen, .idle, ao, sl, cu, fp, gc, cp, rp, ho, ob'⟩ with
          | some k => _
          | none => _) = _
        rw [hk, ht]; rfl
      · change (match State.findTag ⟨d, o⟩ ⟨reg, gen, .idle, ao, sl, cu, fp, gc, cp, rp, ho, ob'⟩ with
          | some k => _
          | none => _) = _
        rw [hk, ht]; exact buildMiss_eq_next d o ⟨reg, gen, .idle, ao, sl, cu, fp, gc, c, r, hs, ob⟩ hf
  | rdtab i =>
    change (if State.hasTable ⟨reg, gen, phase, ao, sl, cu, fp, gc, cp, rp, ho, ob'⟩ then _ else _) = _
    simp only [exec, execRdtab] at h
    split at h <;> cases h <;> simp_all <;> rfl
  | start o =>
    cases phase with
    | active => cases h; rfl
    | idle =>
      change (if State.hasTable ⟨reg, gen, .idle, ao, sl, cu, fp, gc, cp, rp, ho, ob'⟩ then _ else _) = _
      simp only [exec, execStart] at h
      split at h <;> cases h <;> simp_all <;> rfl
  | byte b => cases phase <;> cases h <;> rfl
  | finish => cases phase <;> cases h <;> rfl
  | fail k => cases phase <;> cases h <;> rfl
  | rdsrStatus => cases h; rfl
  | rdsrDivisor =>
    change (if State.hasTable ⟨reg, gen, phase, ao, sl, cu, fp, gc, cp, rp, ho, ob'⟩ then _ else _) = _
    simp only [exec, execRdsrDivisor] at h
    split at h <;> cases h <;> simp_all <;> rfl
  | rdsrGencount => cases h; rfl
  | reservedOp0 rest => cases h; rfl
  | reservedOp8F op rest => cases h; rfl

/-! ### The host's side of a step -/

/-- What the host's next act does, when it has a next state. -/
theorem hostStep_eq_next {s t : State} (h : hostStep s = .next t) :
    (s.host = [] ∧ t = s) ∨
    (∃ w rest, s.host = .offer w :: rest ∧ (s.cmdPort = none ∨ s.cmdPort = some w) ∧
      t = { s with host := rest, cmdPort := some w }) ∨
    (∃ rest, s.host = .take :: rest ∧ t = State.deliver { s with host := rest }) ∨
    (∃ rest, s.host = .reset :: rest ∧ t = State.resetEvent { s with host := rest }) := by
  rw [hostStep] at h
  split at h
  · next hh => exact .inl ⟨hh, by simpa using h.symm⟩
  · next w rest hh =>
    refine .inr (.inl ⟨w, rest, hh, ?_⟩)
    simp only [offerCommand] at h
    split at h
    · next hc => exact ⟨.inl hc, by simpa using h.symm⟩
    · next held hc =>
      split at h
      · next e => subst e; exact ⟨.inr hc, by simp at h; subst h; simp [← hc]⟩
      · cases h
  · next rest hh => exact .inr (.inr (.inl ⟨rest, hh, by simpa using h.symm⟩))
  · next rest hh => exact .inr (.inr (.inr ⟨rest, hh, by simpa using h.symm⟩))

/-- A delivery changes the response port and what the host has observed, nothing else. -/
theorem State.deliver_eq (s : State) :
    s.deliver = { s with rspPort := none, observed := s.observed ++ s.rspPort.toList } := by
  rcases s with ⟨_, _, _, _, _, _, _, _, _, r, _, _⟩
  cases r <;> simp [State.deliver]

end Sys2Proof.Machine
end

