-- ==== Sys2Proof/Laws/PerInstr.lean ====
section
/-! SUPPORT. Facts stated per instruction of the command set, about the instruction as syntax. -/

/-- The word of a well-formed instruction selects the instruction's own row of the opcode table (30_encoding.md R83). -/
def Sys2Proof.Laws.SelectsItsRow.Statement (i : Sys2Proof.Instr) : Prop :=
  i.wellFormed = true → i.row ∈ Sys2Proof.opcodeTable ∧ i.row.selects (Sys2Proof.encode i) = true

namespace Sys2Proof.Laws

theorem SelectsItsRow.build (o : Orientation) (d : Word) : SelectsItsRow.Statement (.build o d) := fun _ =>
  ⟨row_mem _, by rw [selects_build]; simp [encode]⟩

theorem low_byte_row (b : Byte) : (0#24 ++ b) &&& 0xFFFFFF00#32 = 0#32 := by
  rw [and_highMask24]
  exact congrArg (0#24 ++ ·) BitVec.extractLsb'_append_eq_right.symm

theorem SelectsItsRow.rdtab (i : Byte) : SelectsItsRow.Statement (.rdtab i) := fun _ =>
  ⟨row_mem _, by rw [selects_rdtab]; simp [encode, low_byte_row]⟩

theorem SelectsItsRow.start (o : Orientation) : SelectsItsRow.Statement (.start o) := fun _ =>
  ⟨row_mem _, by rw [selects_start]; simp [encode]⟩

theorem SelectsItsRow.byte (b : Byte) : SelectsItsRow.Statement (.byte b) := fun _ =>
  ⟨row_mem _, by rw [selects_byte]; simp [encode, low_byte_row]⟩

theorem SelectsItsRow.finish : SelectsItsRow.Statement .finish := fun _ => by decide

theorem SelectsItsRow.fail (k : FailKind) : SelectsItsRow.Statement (.fail k) := fun _ => by cases k <;> decide

theorem SelectsItsRow.rdsrStatus : SelectsItsRow.Statement .rdsrStatus := fun _ => by decide

theorem SelectsItsRow.rdsrDivisor : SelectsItsRow.Statement .rdsrDivisor := fun _ => by decide

theorem SelectsItsRow.rdsrGencount : SelectsItsRow.Statement .rdsrGencount := fun _ => by decide

theorem SelectsItsRow.reservedOp0 (rest : BitVec 36) : SelectsItsRow.Statement (.reservedOp0 rest) := fun _ =>
  ⟨row_mem _, by rw [selects_reservedOp0]; simp [encode]⟩

theorem SelectsItsRow.reservedOp8F (op : BitVec 4) (rest : BitVec 36) :
    SelectsItsRow.Statement (.reservedOp8F op rest) := fun h =>
  ⟨row_mem _, by rw [selects_reservedOp8F]; simpa [encode, Instr.wellFormed] using h⟩

end Sys2Proof.Laws
end

