-- ==== Sys2Proof/Tests/Slice0.lean ====
section
/-! SUPPORT. Tests and witnesses.  Every expected value is the spec's own: a rule, or a row of 95_test_vectors.md.  The
theorems `test_witness_…` show states and operands that meet all the hypotheses of the obligation they name. -/

namespace Sys2Proof.Tests

open Sys2Proof Sys2Proof.Machine

/-! ### Helpers -/

/-- The response a command is answered with. -/
def answer : Host.Outcome State Fault Refusal → Option Response
  | .next t => t.rspPort
  | .fault _ => none
  | .refused _ => none

/-- A property of the next state, false when there is none. -/
def after (o : Host.Outcome State Fault Refusal) (p : State → Bool) : Bool :=
  match o with
  | .next t => p t
  | .fault _ => false
  | .refused _ => false

/-- The state after `BUILD R, 0xEDB88320` from reset (95_test_vectors.md P1). -/
def built : State :=
  { State.reset with
    slots := [Slot.built 0xEDB88320#32 .reflected Slot.empty, Slot.empty]
    fillPtr := 1
    genCount := 1 }

/-- The state after `BUILD N, 0x04C11DB7` besides (P4's second line): both slots valid. -/
def full : State :=
  { built with
    slots := [Slot.built 0xEDB88320#32 .reflected Slot.empty, Slot.built 0x04C11DB7#32 .normal Slot.empty]
    cur := 1
    fillPtr := 0
    genCount := 2 }

/-- The first state with a computation in progress. -/
def active (o : Orientation) (r : Word) : State := { built with phase := .active, accOrient := o, reg := some r }

/-- A table of the Normal preset, current, with a computation in progress. -/
def activeNormal (r : Word) : State := { full with phase := .active, accOrient := .normal, reg := some r }

/-! ### Well-formedness: the one check refuses a term that stands for no reserved opcode -/

theorem test_reserved_opcode_5_is_ill_formed : (Instr.reservedOp8F 5#4 0#36).wellFormed = false := by decide
theorem test_reserved_opcode_7_is_ill_formed : (Instr.reservedOp8F 7#4 0#36).wellFormed = false := by decide
theorem test_reserved_opcode_8_is_well_formed : (Instr.reservedOp8F 8#4 0#36).wellFormed = true := by decide

/-! ### Decoding: words written out bit by bit from R72, R79 and R80 -/

/-- `BUILD N, 0x04C11DB7`: `OP` 0001, `RSV` 000, `O` 1, the divisor. -/
theorem test_decode_build :
    decode 0b0001000100000100110000010001110110110111#40 = .instr (.build .normal 0x04C11DB7#32) := by decide
/-- `RDTAB 0x8A`: `OP` 0010, the index in bits 7:0. -/
theorem test_decode_rdtab : decode 0b0010000000000000000000000000000010001010#40 = .instr (.rdtab 0x8A#8) := by decide
/-- `START N`: `OP` 0011, `O` 1. -/
theorem test_decode_start : decode 0b0011000100000000000000000000000000000000#40 = .instr (.start .normal) := by decide
/-- `BYTE 0x31`: `OP` 0100, the byte in bits 7:0. -/
theorem test_decode_byte : decode 0b0100000000000000000000000000000000110001#40 = .instr (.byte 0x31#8) := by decide
/-- `FINISH`: `OP` 0101. -/
theorem test_decode_finish : decode 0b0101000000000000000000000000000000000000#40 = .instr .finish := by decide
/-- `FAIL IO`: `OP` 0110, the kind in bit 0. -/
theorem test_decode_fail : decode 0b0110000000000000000000000000000000000001#40 = .instr (.fail .ioError) := by decide
/-- `RDSR` with register numbers 0, 1 and 2: `OP` 0111, the number in bits 1:0. -/
theorem test_decode_rdsr_status : decode 0b0111000000000000000000000000000000000000#40 = .instr .rdsrStatus := by decide
theorem test_decode_rdsr_divisor : decode 0b0111000000000000000000000000000000000001#40 = .instr .rdsrDivisor := by decide
theorem test_decode_rdsr_gencount :
    decode 0b0111000000000000000000000000000000000010#40 = .instr .rdsrGencount := by decide
/-- `OP` 0000 with bit 0 and bit 35 set: reserved whatever the other bits. -/
theorem test_decode_reserved_0 :
    decode 0b0000100000000000000000000000000000000001#40 = .instr (.reservedOp0 0x800000001#36) := by decide
/-- `OP` 1000 and 1111. -/
theorem test_decode_reserved_8 :
    decode 0b1000000000000000000000000000000000000000#40 = .instr (.reservedOp8F 0x8#4 0#36) := by decide
theorem test_decode_reserved_F :
    decode 0b1111111100000000000000000000000000000000#40 = .instr (.reservedOp8F 0xF#4 0xF00000000#36) := by decide

/-- The malformed words of V-E2 that select no row. -/
theorem test_decode_malformed :
    [0x12EDB88320#40, 0x18EDB88320#40, 0x2100000001#40, 0x2000000100#40, 0x3000000001#40, 0x4000000100#40,
      0x4100000033#40, 0x4200000033#40, 0x5100000000#40, 0x5000000001#40, 0x6000000002#40, 0x7000000003#40,
      0x7000000004#40].all (fun w => decide (∃ why, why ∈ [Reject.reservedBits, .orientationNotZero, .dataNotZero,
        .reservedRegister] ∧ decode w = .reject why)) = true := by decide

/-- Their nearest well-formed words (V-E2) encode back to themselves. -/
theorem test_encode_words :
    encode (.build .reflected 0xEDB88320#32) = 0x10EDB88320#40 ∧ encode (.rdtab 0xFF#8) = 0x20000000FF#40 ∧
    encode (.start .normal) = 0x3100000000#40 ∧ encode (.byte 0x33#8) = 0x4000000033#40 ∧
    encode .finish = 0x5000000000#40 ∧ encode (.fail .ioError) = 0x6000000001#40 ∧
    encode .rdsrGencount = 0x7000000002#40 := by decide

/-! ### The step runs the word that stands on the command port -/

theorem test_step_runs_build : after (step (State.reset.withFetchWord 40 0x10EDB88320))
    (fun t => decide (t.genCount = 1#32 ∧ t.rspPort = some ⟨.ok, none⟩ ∧ t.cmdPort = none)) = true := by decide +kernel
theorem test_step_runs_rdsr :
    answer (step (State.reset.withFetchWord 40 0x7000000000)) = some ⟨.ok, some 0#32⟩ := by decide +kernel
theorem test_step_answers_malformed :
    answer (step (State.reset.withFetchWord 40 0x3000000001)) = some ⟨.errIllegal, none⟩ := by decide +kernel

/-! ### `BUILD` (P4) and the division (V-T3, V-T4) -/

theorem test_build_miss : after (exec (.build .normal 0x04C11DB7#32) State.reset) (fun t =>
    decide (t.rspPort = some ⟨.ok, none⟩ ∧ t.cur = 0 ∧ t.fillPtr = 1 ∧ t.genCount = 1#32 ∧
      t.tabRead 0 0x80#8 = 0x690CE0EE#32 ∧ t.tabRead 0 0xFF#8 = 0xB1F740B4#32 ∧ t.slotValid 1 = false)) = true := by
  decide +kernel
/-- P4's sixth line: the third config overwrites slot 0. -/
theorem test_build_evicts : after (exec (.build .reflected 0x04C11DB7#32) full) (fun t =>
    decide (t.cur = 0 ∧ t.fillPtr = 1 ∧ t.genCount = 3#32 ∧ t.tabRead 0 0x01#8 = 0x06233697#32 ∧
      t.slotTag 1 = ⟨0x04C11DB7#32, .normal⟩)) = true := by decide +kernel

theorem test_divide_reflected : divideByte 0x01#8 0xEDB88320#32 .reflected = 0x77073096#32 := by decide +kernel
theorem test_divide_normal : divideByte 0xFF#8 0x04C11DB7#32 .normal = 0xB1F740B4#32 := by decide +kernel

/-! ### `RDTAB` (V-T1, P1) -/

theorem test_rdtab : answer (exec (.rdtab 0x01#8) built) = some ⟨.ok, some 0x77073096#32⟩ := by decide +kernel
theorem test_rdtab_no_table : answer (exec (.rdtab 0x00#8) State.reset) = some ⟨.errNoTable, none⟩ := by decide +kernel

/-! ### `START`, `BYTE`, `FINISH`, `FAIL` (V-S5, V-P1, P1, P3) -/

theorem test_start : after (exec (.start .normal) built)
    (fun t => decide (t.reg = some 0xFFFFFFFF#32 ∧ t.accOrient = .normal ∧ t.phase = .active)) = true := by
  decide +kernel
theorem test_start_no_table : answer (exec (.start .reflected) State.reset) = some ⟨.errNoTable, none⟩ := by
  decide +kernel

theorem test_byte_reflected : after (exec (.byte 0x32#8) (active .reflected 0x7C231048#32))
    (fun t => decide (t.reg = some 0xB0ACBB32#32)) = true := by decide +kernel
theorem test_byte_normal : after (exec (.byte 0x32#8) (activeNormal 0x9EFBCF93#32))
    (fun t => decide (t.reg = some 0x3FEC5E6A#32)) = true := by decide +kernel

theorem test_finish : after (exec .finish (active .reflected 0x340BC6D9#32)) (fun t =>
    decide (t.rspPort = some ⟨.ok, some 0xCBF43926#32⟩ ∧ t.phase = .idle ∧ t.reg = none)) = true := by decide +kernel
theorem test_finish_idle : answer (exec .finish built) = some ⟨.errSeq, none⟩ := by decide +kernel

theorem test_fail : after (exec (.fail .notFound) (active .reflected 0x174841BC#32)) (fun t =>
    decide (t.rspPort = some ⟨.errNotFound, none⟩ ∧ t.phase = .idle ∧ t.reg = none)) = true := by decide +kernel
theorem test_fail_io : answer (exec (.fail .ioError) (active .normal 0xFFFFFFFF#32)) = some ⟨.errIo, none⟩ := by
  decide +kernel

/-! ### `RDSR` (P2, P4, P5) and the reserved opcodes (P5) -/

/-- P5: a Normal computation over a Reflected table, the mismatch visible. -/
theorem test_rdsr_status : answer (exec .rdsrStatus (active .normal 0x9F76341A#32)) = some ⟨.ok, some 0x7#32⟩ := by
  decide +kernel
/-- P2: a Normal computation over a Normal table. -/
theorem test_rdsr_status_normal : answer (exec .rdsrStatus (activeNormal 0x9B73448C#32)) = some ⟨.ok, some 0xF#32⟩ := by
  decide +kernel
theorem test_rdsr_divisor : answer (exec .rdsrDivisor full) = some ⟨.ok, some 0x04C11DB7#32⟩ := by decide +kernel
theorem test_rdsr_gencount : answer (exec .rdsrGencount full) = some ⟨.ok, some 2#32⟩ := by decide +kernel
theorem test_reserved_0 : answer (exec (.reservedOp0 0#36) built) = some ⟨.errIllegal, none⟩ := by decide +kernel
theorem test_reserved_8 : answer (exec (.reservedOp8F 8#4 0#36) built) = some ⟨.errIllegal, none⟩ := by decide +kernel

/-- V-P2: a malformed `BYTE` in `IDLE` is answered `ERR_ILLEGAL`, not `ERR_SEQ`. -/
theorem test_priority : answer (execWord 0x4000000100#40 State.reset) = some ⟨.errIllegal, none⟩ := by decide +kernel

/-! ### Responses and the assembly text (V-E3, V-E1) -/

theorem test_response_words :
    Response.word 0x12345678#32 ⟨.ok, some 0xCBF43926#32⟩ = 0x01CBF43926#40 ∧
    Response.word 0x12345678#32 ⟨.ok, some 0#32⟩ = 0x0100000000#40 ∧
    Response.word 0x12345678#32 ⟨.errNoTable, none⟩ = 0x5012345678#40 := by decide

theorem test_command_text : commandText (.build .reflected 0xEDB88320#32) = "BUILD R, 0xEDB88320" := by decide +kernel

/-! ### States that meet the invariant -/

theorem empty_blank : Slot.empty.Blank := ⟨rfl, rfl, fun i => by simp [Slot.entry, Slot.empty]⟩

theorem built_slotValid (k : Nat) : built.slotValid k = decide (k = 0) := by
  match k with
  | 0 => rfl
  | 1 => rfl
  | k + 2 => rfl

theorem full_slotValid (k : Nat) : full.slotValid k = decide (k < 2) := by
  match k with
  | 0 => rfl
  | 1 => rfl
  | k + 2 => simp [State.slotValid, full]

/-- The invariant of a state that differs from `built` in nothing but `PHASE`, `ACC_ORIENT` and `REG`. -/
theorem built_inv : built.Inv where
  cur_lt := by decide
  fillPtr_lt := by decide
  slot_ok := by
    intro sl h
    rcases List.mem_cons.1 h with rfl | h
    · exact .inr ⟨⟨0xEDB88320#32, .reflected⟩, rfl, rfl, Slot.built_entry _ _ _⟩
    · rw [List.mem_singleton.1 h]; exact .inl empty_blank
  tags_unique := by intro j k hj hk _; simp only [built_slotValid, decide_eq_true_eq] at hj hk; omega
  fill_order := .inr fun k => by rw [built_slotValid]; simp only [decide_eq_true_eq, built]; omega
  table_iff := ⟨fun _ => by decide, fun _ => rfl⟩
  valid_table := fun _ _ => rfl
  active_table := fun _ => rfl
  reg_iff := by decide
  gen_none := rfl

theorem full_inv : full.Inv where
  cur_lt := by decide
  fillPtr_lt := by decide
  slot_ok := by
    intro sl h
    rcases List.mem_cons.1 h with rfl | h
    · exact .inr ⟨⟨0xEDB88320#32, .reflected⟩, rfl, rfl, Slot.built_entry _ _ _⟩
    · rw [List.mem_singleton.1 h]
      exact .inr ⟨⟨0x04C11DB7#32, .normal⟩, rfl, rfl, Slot.built_entry _ _ _⟩
  tags_unique := by
    intro j k hj hk h
    simp only [full_slotValid, decide_eq_true_eq] at hj hk
    have h0 : full.slotTag 0 ≠ full.slotTag 1 := by
      change (⟨0xEDB88320#32, .reflected⟩ : PolyConfig) ≠ ⟨0x04C11DB7#32, .normal⟩
      decide
    interval_cases j <;> interval_cases k
    · rfl
    · exact absurd h h0
    · exact absurd h.symm h0
    · rfl
  fill_order := .inl fun k hk => by
    have : k < 2 := hk
    simpa [full_slotValid] using this
  table_iff := ⟨fun _ => by decide, fun _ => rfl⟩
  valid_table := fun _ _ => rfl
  active_table := fun _ => rfl
  reg_iff := by decide
  gen_none := rfl

theorem active_inv (o : Orientation) (r : Word) : (active o r).Inv :=
  { built_inv with active_table := fun _ => rfl, reg_iff := ⟨fun _ => rfl, fun _ => rfl⟩ }

/-! ### Witnesses -/

/-- `DecodeOfEncodeIsTheInstruction`, at the bounds of the reserved opcodes. -/
theorem test_witness_wellFormed :
    (Instr.byte 0xFF#8).wellFormed = true ∧ (Instr.reservedOp8F 8#4 0#36).wellFormed = true ∧
    (Instr.reservedOp8F 15#4 0xFFFFFFFFF#36).wellFormed = true := by decide

/-- `DecodedWordIsItsOwnEncoding`, and the two clauses of `DecoderAgreesWithOpcodeTable`. -/
theorem test_witness_decoded :
    decode 0x40000000FF#40 = .instr (.byte 0xFF#8) ∧ decode 0x4000000100#40 = .reject .dataNotZero := by decide

/-- `MalformedWordIsAnsweredIllegal`, one word at the edge of each clause of R82. -/
theorem test_witness_malformed :
    Malformed 0x0000000000#40 ∧ Malformed 0x8000000000#40 ∧ Malformed 0x12EDB88320#40 ∧ Malformed 0x2100000001#40 ∧
    Malformed 0x2000000100#40 ∧ Malformed 0x3000000001#40 ∧ Malformed 0x4100000033#40 ∧ Malformed 0x4000000100#40 ∧
    Malformed 0x5100000000#40 ∧ Malformed 0x5000000001#40 ∧ Malformed 0x6100000000#40 ∧ Malformed 0x6000000002#40 ∧
    Malformed 0x7100000000#40 ∧ Malformed 0x7000000003#40 := by
  refine ⟨?_, ?_, ?_, ?_, ?_, ?_, ?_, ?_, ?_, ?_, ?_, ?_, ?_, ?_⟩ <;> decide

/-- `OnlyMalformedWordsAreIllegal`, at the largest value of each field. -/
theorem test_witness_not_malformed :
    (¬ Malformed 0x11FFFFFFFF#40 ∧ ¬ Malformed 0x20000000FF#40 ∧ ¬ Malformed 0x3100000000#40 ∧
      ¬ Malformed 0x40000000FF#40 ∧ ¬ Malformed 0x6000000001#40 ∧ ¬ Malformed 0x7000000002#40) ∧
    after (execWord 0x7000000002#40 State.reset) (fun _ => true) = true := by
  refine ⟨⟨?_, ?_, ?_, ?_, ?_, ?_⟩, ?_⟩ <;> decide +kernel

/-- `StepRunsTheAcceptedInstruction`: with a host that does nothing, and with one whose next act is a reset. -/
theorem test_witness_accepted :
    let s := State.reset.placeCommand 0x5000000000#40
    let s' := { s with host := [.reset] }
    s.cmdPort = some 0x5000000000#40 ∧ s.rspPort = none ∧ decode 0x5000000000#40 = .instr .finish ∧
    s'.cmdPort = some 0x5000000000#40 ∧ s'.rspPort = none ∧ s'.host.head? = some .reset := by decide

/-- `StepAnswersAWordThatSelectsNoRow`, the host's next act a reset. -/
theorem test_witness_rejected :
    let s := { State.reset.placeCommand 0x5100000000#40 with host := [.reset] }
    s.cmdPort = some 0x5100000000#40 ∧ s.rspPort = none ∧
      decode 0x5100000000#40 = .reject .orientationNotZero := by decide

/-- `PendingResponseHoldsTheCore`, in a computation with a word offered meanwhile: a host that does nothing and one that
offers the word again (the response is held), and one that takes it (it is delivered). -/
theorem test_witness_pending :
    let r : Response := ⟨.ok, none⟩
    let s := { active .normal 5#32 with rspPort := some r, cmdPort := some 0x5000000000#40 }
    let so := { s with host := [.offer 0x5000000000#40] }
    let st := { s with host := [.take] }
    (s.rspPort = some r ∧ s.host.head? ≠ some .reset ∧ s.host.head? ≠ some .take ∧ s.cmdPort.isSome = true ∧
      step s = .next s) ∧
    (so.rspPort = some r ∧ so.host.head? ≠ some .reset ∧ so.host.head? ≠ some .take ∧ step so = .next s) ∧
    st.rspPort = some r ∧ st.host.head? ≠ some .reset ∧ st.host.head? = some .take ∧
      step st = .next { s with rspPort := none, observed := [r] } :=
  ⟨⟨rfl, by decide, by decide, rfl, rfl⟩, ⟨rfl, by decide, by decide, rfl⟩, rfl, by decide, rfl, rfl⟩

/-- `CoreDoesNotActUnasked`: an offer and a take with no response pending, a take with one, and a host that does
nothing. -/
theorem test_witness_unasked :
    let so := { built with host := [.offer 0x5000000000#40] }
    let st := { built with host := [.take] }
    let sp := { st with rspPort := some ⟨.ok, none⟩ }
    (so.acceptable = none ∧ so.host.head? ≠ some .reset ∧ so.rspPort = none ∧
      step so = .next { built with cmdPort := some 0x5000000000#40 }) ∧
    (st.acceptable = none ∧ st.host.head? ≠ some .reset ∧ st.rspPort = none ∧ step st = .next built) ∧
    (sp.acceptable = none ∧ sp.host.head? ≠ some .reset ∧ step sp = .next { built with observed := [⟨.ok, none⟩] }) ∧
    built.acceptable = none ∧ built.host = [] :=
  ⟨⟨rfl, by decide, rfl, rfl⟩, ⟨rfl, by decide, rfl, rfl⟩, ⟨rfl, by decide, rfl⟩, rfl, rfl⟩

/-- `ResetEventTakesTheResetState`, in the middle of a computation with a response pending. -/
theorem test_witness_reset_event :
    let s := { active .normal 5#32 with rspPort := some ⟨.ok, none⟩, host := [.reset, .take] }
    s.acceptable = none ∧ s.host = .reset :: [.take] := ⟨rfl, rfl⟩

/-- `ResetMeetsTheInvariant`, at the least number of slots. -/
theorem test_witness_one_slot : 1 ≤ (State.resetWith 1).slots.length := by decide

/-- `StepKeepsTheInvariant`: a byte folded in, and a reset event. -/
theorem test_witness_step :
    (active .normal 5#32).Inv ∧ ({ active .normal 5#32 with cmdPort := some 0x4000000033#40 } : State).Inv ∧
    (∃ t, step { active .normal 5#32 with cmdPort := some 0x4000000033#40 } = .next t) ∧
    ∃ t, step { active .normal 5#32 with host := [.reset] } = .next t :=
  ⟨active_inv _ _, { active_inv .normal 5#32 with }, ⟨_, rfl⟩, ⟨_, rfl⟩⟩

/-- `EveryWordHasANextStateAndAResponse`, `AcceptanceByPhase`: a state of each phase, with a table and without. -/
theorem test_witness_invariant :
    (built.Inv ∧ built.phase = .idle ∧ built.hasTable = true) ∧
    ((active .reflected 0#32).Inv ∧ (active .reflected 0#32).phase = .active) ∧
    State.reset.phase = .idle ∧ State.reset.hasTable = false :=
  ⟨⟨built_inv, rfl, rfl⟩, ⟨active_inv _ _, rfl⟩, rfl, rfl⟩

/-- `EveryWordHasANextStateAndAResponse`, `AcceptanceByPhase`: the reset state meets the invariant. -/
theorem test_witness_reset_inv : State.reset.Inv where
  cur_lt := by decide
  fillPtr_lt := by decide
  slot_ok := fun sl h => by rw [List.eq_of_mem_replicate h]; exact .inl empty_blank
  tags_unique := by
    intro j k hj
    have : j < 2 := State.lt_of_slotValid hj
    interval_cases j <;> cases hj
  fill_order := .inr fun k => by
    constructor
    · intro h
      have : k < 2 := State.lt_of_slotValid h
      interval_cases k <;> cases h
    · intro h; exact absurd h (Nat.not_lt_zero k)
  table_iff := by decide
  valid_table := by
    intro k h
    have : k < 2 := State.lt_of_slotValid h
    interval_cases k <;> cases h
  active_table := fun h => by cases h
  reg_iff := by decide
  gen_none := rfl

/-- `TransactionIsThreeSteps`. -/
theorem test_witness_transaction :
    let s := { built with host := [.offer 0x5000000000#40, .take, .reset] }
    s.cmdPort = none ∧ s.rspPort = none ∧ s.host = .offer 0x5000000000#40 :: .take :: [.reset] ∧
    ∃ t, transact 0x5000000000#40 { s with host := [.reset] } = some t := ⟨rfl, rfl, rfl, _, rfl⟩

/-- `PayloadExactlyOnSuccessfulRead`, `RegisterShowsOnlyInFinish`, `FrameOfReadsAndReserved`: reads and reserved opcodes
have next states. -/
theorem test_witness_reads :
    (∃ t, exec (.rdtab 0xFF#8) built = .next t) ∧ (∃ t, exec (.rdtab 0xFF#8) { built with reg := some 1#32 } = .next t) ∧
    (∃ t, exec .rdsrStatus built = .next t) ∧ (∃ t, exec .rdsrDivisor built = .next t) ∧
    (∃ t, exec .rdsrGencount built = .next t) ∧ (∃ t, exec (.reservedOp0 0#36) built = .next t) ∧
    ∃ t, exec (.reservedOp8F 8#4 0#36) built = .next t :=
  ⟨⟨_, rfl⟩, ⟨_, rfl⟩, ⟨_, rfl⟩, ⟨_, rfl⟩, ⟨_, rfl⟩, ⟨_, rfl⟩, ⟨_, rfl⟩⟩

/-- `FrameOfAccumulatorCommands`, in the phase in which each has its effect. -/
theorem test_witness_accumulator_frame :
    (∃ t, exec (.start .normal) built = .next t) ∧ (∃ t, exec (.byte 0#8) (active .normal 1#32) = .next t) ∧
    (∃ t, exec .finish (active .normal 1#32) = .next t) ∧ ∃ t, exec (.fail .ioError) (active .normal 1#32) = .next t :=
  ⟨⟨_, rfl⟩, ⟨_, rfl⟩, ⟨_, rfl⟩, ⟨_, rfl⟩⟩

/-- `BuildHitSelectsTheSlot`, and the last clause of `FrameOfBuild`: a hit on a slot that is not the current one. -/
theorem test_witness_hit :
    full.Inv ∧ full.phase = .idle ∧ full.slotValid 0 = true ∧
    full.slotTag 0 = { divisor := 0xEDB88320#32, orientation := .reflected } ∧ full.cur ≠ 0 :=
  ⟨full_inv, rfl, rfl, rfl, by decide⟩

/-- `BuildMissFillsTheSlot`, `BuildAlwaysSucceedsInIdle`: the same divisor in the other orientation is another config,
in a full store. -/
theorem test_witness_miss :
    full.phase = .idle ∧ full.fillPtr < full.slots.length ∧
    ∀ k, full.slotValid k = true → full.slotTag k ≠ { divisor := 0xEDB88320#32, orientation := .normal } := by
  refine ⟨rfl, by decide, fun k hk => ?_⟩
  simp only [full_slotValid, decide_eq_true_eq] at hk
  interval_cases k
  · change (⟨0xEDB88320#32, .reflected⟩ : PolyConfig) ≠ _; decide
  · change (⟨0x04C11DB7#32, .normal⟩ : PolyConfig) ≠ _; decide

/-- `FrameOfBuild`, `GenCountAddsOnePerRunAndSaturates`: a miss has a next state, at the saturated count too. -/
theorem test_witness_build_next :
    (∃ t, buildMiss ⟨1#32, .normal⟩ built = .next t) ∧
    after (exec (.build .normal 0#32) { State.reset with genCount := 0xFFFFFFFF#32 })
      (fun t => decide (t.genCount = 0xFFFFFFFF#32)) = true :=
  ⟨⟨_, buildMiss_eq_next _ _ built (by decide)⟩, by decide +kernel⟩

/-- `BuildRefusedDuringComputation`, `StartRefusedDuringComputation`, `ByteCompletesInActive`,
`FailEndsWithoutAChecksum`; and `FinishReturnsTheComplement`, `ByteFoldsReflected` with `REG`'s value. -/
theorem test_witness_active :
    (active .reflected 5#32).phase = .active ∧ (active .reflected 5#32).reg = some 5#32 ∧
    (active .reflected 5#32).accOrient = .reflected := ⟨rfl, rfl, rfl⟩

/-- `ByteFoldsNormal`. -/
theorem test_witness_active_normal :
    (activeNormal 5#32).phase = .active ∧ (activeNormal 5#32).reg = some 5#32 ∧
    (activeNormal 5#32).accOrient = .normal := ⟨rfl, rfl, rfl⟩

/-- `BuildFaultsOutsideTheStore`: `FILL_PTR` one past the last slot. -/
theorem test_witness_outside :
    let s := { State.reset with fillPtr := 2 }
    s.phase = .idle ∧ s.slots.length ≤ s.fillPtr ∧
    ∀ k, s.slotValid k = true → s.slotTag k ≠ { divisor := 0#32, orientation := .normal } := by
  refine ⟨rfl, by decide, fun k hk => ?_⟩
  have : k < 2 := State.lt_of_slotValid hk
  interval_cases k <;> cases hk

/-- `GenCountCountsDistinctConfigs` with one slot: one config (as many as slots), and two. -/
theorem test_witness_gen_count :
    (runWords [0x1104C11DB7#40] (State.resetWith 1)).map
      (fun t => ((builtConfigs [0x1104C11DB7#40] t.observed).dedup.length, t.genCount)) = some (1, 1#32) ∧
    (runWords [0x1100000000#40, 0x1104C11DB7#40] (State.resetWith 1)).map
      (fun t => ((builtConfigs [0x1100000000#40, 0x1104C11DB7#40] t.observed).dedup.length, t.genCount)) =
        some (2, 2#32) := by decide +kernel

/-- `RdtabReturnsTheDivision`, in both phases; `StartOpensAComputation`, `EmptyInputGivesZero`, the first clause of
`DivisorAndCountReads`. -/
theorem test_witness_table :
    (built.Inv ∧ built.hasTable = true ∧ built.phase = .idle) ∧
    (active .normal 5#32).Inv ∧ (active .normal 5#32).hasTable = true :=
  ⟨⟨built_inv, rfl, rfl⟩, active_inv _ _, rfl⟩

/-- `NoTableIsReported` in both phases, `NoComputationIsReported`. -/
theorem test_witness_no_table :
    State.reset.hasTable = false ∧ State.reset.phase = .idle ∧
    ({ State.reset with phase := .active } : State).hasTable = false := ⟨rfl, rfl, rfl⟩

/-- A check over a list of words, one by one. -/
theorem keeps_computation {ws : List CmdWord} (h : (ws.all fun w => !endsComputation w) = true) :
    ∀ w ∈ ws, endsComputation w = false := by simpa using h

/-- `ComputationReturnsTheChecksum`: among the words a byte, a refused `START` and a malformed word. -/
theorem test_witness_computation :
    built.phase = .idle ∧ built.hasTable = true ∧
    ∀ w ∈ [0x4000000031#40, 0x3000000000#40, 0x4000000100#40], endsComputation w = false :=
  ⟨rfl, rfl, keeps_computation (by decide +kernel)⟩

/-- `ChecksumDependsOnTagOrientationAndBytes`: two stores with the same current tag, one run with a table read in it. -/
theorem test_witness_determinism :
    let s := { full with cur := 0 }
    let ws := [0x4000000031#40, 0x2000000001#40]
    let ws' := [0x4000000031#40]
    built.Inv ∧ s.Inv ∧ built.phase = .idle ∧ s.phase = .idle ∧ built.hasTable = true ∧ s.hasTable = true ∧
    built.slotTag built.cur = s.slotTag s.cur ∧ (∀ w ∈ ws, endsComputation w = false) ∧
    (∀ w ∈ ws', endsComputation w = false) ∧ deliveredBytes ws = deliveredBytes ws' ∧
    (∃ t, runWords (encode (.start .reflected) :: (ws ++ [encode .finish])) built = some t) ∧
    ∃ t', runWords (encode (.start .reflected) :: (ws' ++ [encode .finish])) s = some t' :=
  ⟨built_inv, { full_inv with cur_lt := by decide }, rfl, rfl, rfl, rfl, rfl,
    keeps_computation (by decide +kernel), keeps_computation (by decide +kernel), by decide +kernel, Option.isSome_iff_exists.1 (by decide +kernel),
    Option.isSome_iff_exists.1 (by decide +kernel)⟩

/-- `ReservedOpcodesAreIllegal`, at the edges of the reserved opcodes. -/
theorem test_witness_reserved :
    opField 0x0FFFFFFFFF#40 = 0x0#4 ∧ 8 ≤ (opField 0x8000000000#40).toNat ∧
    8 ≤ (opField 0xFFFFFFFFFF#40).toNat := by decide

/-- `ErrorsChangeNothingElse`: each of the five errors is answered somewhere. -/
theorem test_witness_errors :
    answer (execWord 0x0000000000#40 built) = some ⟨.errIllegal, none⟩ ∧
    answer (execWord 0x5000000000#40 built) = some ⟨.errSeq, none⟩ ∧
    answer (execWord 0x3000000000#40 State.reset) = some ⟨.errNoTable, none⟩ ∧
    answer (execWord 0x6000000000#40 (active .normal 5#32)) = some ⟨.errNotFound, none⟩ ∧
    answer (execWord 0x6000000001#40 (active .normal 5#32)) = some ⟨.errIo, none⟩ := by decide +kernel

/-- `PhaseTransitions`: a `START`, a `FINISH` and a reset event change the phase. -/
theorem test_witness_phase :
    after (step { built with cmdPort := some 0x3000000000#40 }) (fun t => decide (t.phase ≠ built.phase)) = true ∧
    after (step { active .normal 5#32 with cmdPort := some 0x5000000000#40 })
      (fun t => decide (t.phase ≠ .active)) = true ∧
    after (step { active .normal 5#32 with host := [.reset] }) (fun t => decide (t.phase ≠ .active)) = true := by
  decide +kernel

/-- `OnlyBuildInIdleWritesTheStore`: a hit on a slot that is not the current one writes `CUR`. -/
theorem test_witness_store : after (execWord 0x10EDB88320#40 full)
    (fun t => decide (t.cur ≠ full.cur)) = true := by decide +kernel

end Sys2Proof.Tests
end

section
/-! What one step does by the state of the ports (30_encoding.md R71 to R74), and a transaction as three steps of the
model (00_scope.md R8). -/

namespace Sys2Proof.Machine

/-! ### When a word can be accepted -/

theorem State.acceptable_of_rspPort_none {s : State} (h : s.rspPort = none) : s.acceptable = s.cmdPort := by
  simp [State.acceptable, State.cmdReady, h]

theorem State.acceptable_of_cmdPort_none {s : State} (h : s.cmdPort = none) : s.acceptable = none := by
  simp [State.acceptable, h]

/-! ### The step by whether a word can be accepted -/

theorem step_of_acceptable_some {s : State} {w : CmdWord} (h : s.acceptable = some w) :
    step s = execWord w s.acceptCommand := by
  rw [step, h]

theorem step_of_acceptable_none {s : State} (h : s.acceptable = none) : step s = hostStep s := by
  rw [step, h]

/-! ### The host's acts, one by one -/

theorem hostStep_offer {s : State} {w : CmdWord} {rest : List HostAct} (hc : s.cmdPort = none)
    (hh : s.host = .offer w :: rest) : hostStep s = .next { s with host := rest, cmdPort := some w } := by
  simp [hostStep, hh, offerCommand, hc]

theorem hostStep_take {s : State} {rest : List HostAct} (hh : s.host = .take :: rest) :
    hostStep s = .next (State.deliver { s with host := rest }) := by
  rw [hostStep, hh]

/-! ### The execution of a word, by what it decodes to -/

theorem execWord_of_instr {w : CmdWord} {i : Instr} (h : decode w = .instr i) (s : State) :
    execWord w s = exec i s := by
  rw [execWord, h]

theorem execWord_of_reject {w : CmdWord} {why : Reject} (h : decode w = .reject why) (s : State) :
    execWord w s = .next (s.respond .errIllegal none) := by
  rw [execWord, h]; rfl

/-- `exec_ports` for every word: the ports and the host play no part in the execution of a word that selects no row
either. -/
theorem execWord_ports {w : CmdWord} {s t : State} (c : Option CmdWord) (r : Option Response) (hs : List HostAct)
    (ob : List Response) (h : execWord w s = .next t) :
    execWord w { s with cmdPort := c, rspPort := r, host := hs, observed := ob } =
      .next { t with cmdPort := c, host := hs, observed := ob } := by
  cases hd : decode w with
  | instr i =>
    rw [execWord_of_instr hd] at h ⊢
    exact exec_ports c r hs ob h
  | reject why =>
    rw [execWord_of_reject hd] at h ⊢
    cases h; rfl

/-- An execution leaves the command port, the host's acts and what the host has observed as they were: `execWord_ports`
with the ports the state already has. -/
theorem execWord_sameHost {w : CmdWord} {s t : State} (h : execWord w s = .next t) : SameHost s t := by
  have same : execWord w s = .next { t with cmdPort := s.cmdPort, host := s.host, observed := s.observed } :=
    execWord_ports s.cmdPort s.rspPort s.host s.observed h
  rw [h, Host.Outcome.next.injEq] at same
  rw [same]
  exact ⟨rfl, rfl, rfl⟩

/-! ### Runs of the machine -/

/-- A run of one step more begins with that step. -/
theorem core_run_succ {M : Host.Core} {s t : M.State} (k : Nat) (h : M.step s = .next t) :
    M.run (k + 1) s = M.run k t := by
  rw [Host.Core.run, h]

/-- A transaction that ends is an execution and the delivery of its response. -/
theorem transact_eq_some {w : CmdWord} {s t : State} (h : transact w s = some t) :
    ∃ u, execWord w s = .next u ∧ t = u.deliver := by
  rw [transact] at h
  split at h
  · next u hu => exact ⟨u, hu, (Option.some.inj h).symm⟩
  · cases h
  · cases h

/-! ### The obligations -/

/-- Settles O8: the offered word is acceptable, so the step is its execution. -/
theorem stepRunsTheAcceptedInstruction : Obligations.StepRunsTheAcceptedInstruction := by
  intro s w i hc hr hd
  have ha : s.acceptable = some w := (State.acceptable_of_rspPort_none hr).trans hc
  rw [step_of_acceptable_some ha, execWord_of_instr hd]
  rfl

/-- Settles O17: one equation per step, chained.  The execution in the middle runs with the host's `take` still ahead,
where `transact` runs it with that act gone; `execWord_ports` says that this makes no difference. -/
theorem transactionIsThreeSteps : Obligations.TransactionIsThreeSteps := by
  intro s t w rest hc hr hh ht
  obtain ⟨u, hu, rfl⟩ := transact_eq_some ht
  obtain ⟨huc, huh, huo⟩ : u.cmdPort = s.cmdPort ∧ u.host = rest ∧ u.observed = s.observed :=
    execWord_sameHost hu
  rw [hc] at huc
  have offered : step s = .next { s with host := .take :: rest, cmdPort := some w } := by
    rw [step_of_acceptable_none (State.acceptable_of_cmdPort_none hc), hostStep_offer hc hh]
  have executed : step { s with host := .take :: rest, cmdPort := some w } =
      .next { u with host := .take :: rest } := by
    have accepts : State.acceptable { s with host := .take :: rest, cmdPort := some w } = some w :=
      State.acceptable_of_rspPort_none hr
    rw [step_of_acceptable_some accepts]
    refine (execWord_ports none s.rspPort (.take :: rest) s.observed hu).trans ?_
    rw [← huo, ← huc]
  have taken : step { u with host := .take :: rest } = .next u.deliver := by
    have idle : State.acceptable { u with host := .take :: rest } = none :=
      State.acceptable_of_cmdPort_none huc
    rw [step_of_acceptable_none idle, hostStep_take rfl, ← huh]
  calc Sys2Proof.core.run 3 s
    _ = Sys2Proof.core.run 2 _ := core_run_succ 2 offered
    _ = Sys2Proof.core.run 1 _ := core_run_succ 1 executed
    _ = Sys2Proof.core.run 0 _ := core_run_succ 0 taken
    _ = .next u.deliver := rfl

end Sys2Proof.Machine
end

section
/-! `BUILD` by its three branches (40_table_generator.md R109), the table store after a generation run, and the one case
of the host's side of a step that changes the core. -/

namespace Sys2Proof.Machine

/-! ### `BUILD` or not -/

theorem Instr.isBuild_or_not (i : Instr) : (∃ o d, i = .build o d) ∨ ∀ o d, i ≠ .build o d := by
  cases i <;> simp

/-! ### The branches of `BUILD` -/

theorem execBuild_of_active {s : State} (o : Orientation) (d : Word) (hp : s.phase = .active) :
    execBuild o d s = .next (s.respond .errSeq none) := by
  rw [execBuild, hp]; rfl

theorem execBuild_of_hit {s : State} {o : Orientation} {d : Word} {k : Nat} (hp : s.phase = .idle)
    (hk : s.findTag ⟨d, o⟩ = some k) : execBuild o d s = .next ((s.selectSlot k).respond .ok none) := by
  rw [execBuild, hp, hk]; rfl

theorem execBuild_of_miss {s : State} {o : Orientation} {d : Word} (hp : s.phase = .idle)
    (hk : s.findTag ⟨d, o⟩ = none) : execBuild o d s = buildMiss ⟨d, o⟩ s := by
  rw [execBuild, hp, hk]

theorem execBuild_phase {o : Orientation} {d : Word} {s t : State} (h : execBuild o d s = .next t) :
    t.phase = s.phase := by
  rcases execBuild_eq_next h with ⟨-, rfl⟩ | ⟨-, k, -, rfl⟩ | ⟨-, -, -, rfl⟩ <;> rfl

/-! ### The table store after a generation run -/

/-- Slot `k` filled with the whole table of a config, and nothing else changed: a generation run between commands, where
`DREG`, `IDX` and `RND` hold no value (`State.generationRun_eq_fillSlot`). -/
def State.fillSlot (c : PolyConfig) (k : Nat) (s : State) : State :=
  s.modifySlot k (Slot.built c.divisor c.orientation)

theorem State.generationRun_eq_fillSlot {s : State} (c : PolyConfig) (k : Nat) (hg : s.gen = none) :
    s.generationRun c k = s.fillSlot c k := by
  rw [State.generationRun_eq, ← hg]; rfl

/-- A miss between commands whose slot exists: the slot is filled, the run counted, the command answered (R109). -/
theorem buildMiss_eq_fillSlot {s : State} (c : PolyConfig) (hf : s.fillPtr < s.slots.length) (hg : s.gen = none) :
    buildMiss c s = .next (((s.fillSlot c s.fillPtr).countRun s.fillPtr).respond .ok none) := by
  rw [buildMiss, if_pos hf, State.generationRun_eq_fillSlot c _ hg]; rfl

@[simp] theorem State.fillSlot_slots (s : State) (c : PolyConfig) (k : Nat) :
    (s.fillSlot c k).slots = s.slots.modify k (Slot.built c.divisor c.orientation) := rfl

@[simp] theorem State.fillSlot_fillPtr (s : State) (c : PolyConfig) (k : Nat) :
    (s.fillSlot c k).fillPtr = s.fillPtr := rfl

@[simp] theorem State.countRun_hasTable (s : State) (k : Nat) : (s.countRun k).hasTable = s.slotValid k := rfl

theorem Slot.built_holds (c : PolyConfig) (sl : Slot) : (Slot.built c.divisor c.orientation sl).Holds c :=
  ⟨rfl, rfl, Slot.built_entry _ _ sl⟩

/-- Every slot after a run is an old one or holds the whole table of the run's config. -/
theorem State.mem_fillSlot_slots {s : State} {c : PolyConfig} {k : Nat} {sl : Slot}
    (h : sl ∈ (s.fillSlot c k).slots) : sl ∈ s.slots ∨ sl.Holds c := by
  obtain ⟨j, hj⟩ := List.mem_iff_getElem?.1 h
  rw [State.fillSlot_slots, List.getElem?_modify] at hj
  obtain ⟨old, hold, rfl⟩ := Option.map_eq_some_iff.1 hj
  split
  · exact .inr (Slot.built_holds c old)
  · exact .inl (List.mem_of_getElem? hold)

/-- The valid slots after a run: its own and the old ones. -/
theorem State.slotValid_fillSlot {s : State} (c : PolyConfig) {k : Nat} (hk : k < s.slots.length) (j : Nat) :
    (s.fillSlot c k).slotValid j = true ↔ j = k ∨ s.slotValid j = true := by
  by_cases hj : j = k
  · subst hj; simp [State.slotValid, hk]
  · simp [State.slotValid, hj, Ne.symm hj]

theorem State.slotTag_fillSlot_same {s : State} (c : PolyConfig) {k : Nat} (hk : k < s.slots.length) :
    (s.fillSlot c k).slotTag k = c := by
  simp [State.slotTag, hk]

theorem State.slotTag_fillSlot_other (s : State) (c : PolyConfig) {j k : Nat} (hj : j ≠ k) :
    (s.fillSlot c k).slotTag j = s.slotTag j := by
  simp [State.slotTag, Ne.symm hj]

/-! ### The saturating count -/

theorem bumpCount_eq (g : Word) :
    bumpCount g = if g = 0xFFFFFFFF#32 then 0xFFFFFFFF#32 else g + 1#32 := by
  split
  · next hg => rw [hg]; rfl
  · next hg =>
    have hlt : g.toNat ≠ 0xFFFFFFFF := fun e => hg (BitVec.eq_of_toNat_eq e)
    apply BitVec.eq_of_toNat_eq
    rw [bumpCount_toNat, BitVec.toNat_add, BitVec.toNat_ofNat]
    omega

theorem bumpCount_ne_zero (g : Word) : bumpCount g ≠ 0 := by
  intro h
  have count := bumpCount_toNat g
  rw [h, BitVec.ofNat_eq_ofNat, BitVec.toNat_ofNat, Nat.zero_mod] at count
  omega

/-! ### The core's part of an answer and of the host's acts -/

theorem State.sameCore_respond (s : State) (st : Status) (v : Option Word) : SameCore s (s.respond st v) :=
  ⟨rfl, rfl, rfl, rfl, rfl, rfl, rfl, rfl⟩

theorem State.sameCore_acceptCommand (s : State) : SameCore s s.acceptCommand :=
  ⟨rfl, rfl, rfl, rfl, rfl, rfl, rfl, rfl⟩

/-- The host's acts leave the core's state alone, the reset event apart (R209, R231). -/
theorem hostStep_sameCore_or_reset {s t : State} (h : hostStep s = .next t) :
    SameCore s t ∨ ∃ rest, s.host = .reset :: rest ∧ t = State.resetEvent { s with host := rest } := by
  rcases hostStep_eq_next h with ⟨-, rfl⟩ | ⟨w, rest, -, -, rfl⟩ | ⟨rest, -, rfl⟩ | hreset
  · exact .inl ⟨rfl, rfl, rfl, rfl, rfl, rfl, rfl, rfl⟩
  · exact .inl ⟨rfl, rfl, rfl, rfl, rfl, rfl, rfl, rfl⟩
  · rw [State.deliver_eq]
    exact .inl ⟨rfl, rfl, rfl, rfl, rfl, rfl, rfl, rfl⟩
  · exact .inr hreset

end Sys2Proof.Machine
end

section
/-! The invariant of the states between commands (`State.Inv`): it holds at reset, and one lemma per state operation
says that the operation keeps it. -/

namespace Sys2Proof.Machine

/-! ### Reset -/

theorem Slot.empty_blank : Slot.empty.Blank :=
  ⟨rfl, rfl, fun i => by simp [Slot.entry, Slot.empty]⟩

@[simp] theorem State.resetWith_slotValid (n k : Nat) : (State.resetWith n).slotValid k = false := by
  simp only [State.slotValid, State.resetWith, List.getElem?_replicate]
  by_cases hk : k < n <;> simp [hk, Slot.empty]

@[simp] theorem State.resetWith_hasTable (n : Nat) : (State.resetWith n).hasTable = false :=
  State.resetWith_slotValid n 0

theorem State.resetWith_fillPtr (n : Nat) : (State.resetWith n).fillPtr = 0 := rfl

theorem State.resetWith_genCount (n : Nat) : (State.resetWith n).genCount = 0 := rfl

theorem State.resetWith_slots_length (n : Nat) : (State.resetWith n).slots.length = n := List.length_replicate

theorem State.resetWith_slots_blank (n : Nat) : ∀ sl ∈ (State.resetWith n).slots, sl.Blank := fun sl h => by
  rw [List.eq_of_mem_replicate h]
  exact Slot.empty_blank

theorem State.resetWith_inv {n : Nat} (hn : 1 ≤ n) : (State.resetWith n).Inv where
  cur_lt := by rw [State.resetWith_slots_length]; exact hn
  fillPtr_lt := by rw [State.resetWith_slots_length]; exact hn
  slot_ok sl h := .inl (State.resetWith_slots_blank n sl h)
  tags_unique j k hj := by simp at hj
  fill_order := .inr fun k => by simp [State.resetWith_fillPtr]
  table_iff := by simp [State.resetWith_genCount]
  valid_table k hk := by simp at hk
  active_table h := nomatch h
  reg_iff := ⟨nofun, nofun⟩
  gen_none := rfl

/-! ### What the operations keep -/

/-- The invariant speaks of the core's state alone (R20). -/
theorem State.Inv.of_sameCore {s t : State} (h : s.Inv) (hc : SameCore s t) : t.Inv := by
  obtain ⟨reg, gen, phase, ao, sl, cu, fp, gc, cp, rp, ho, ob⟩ := t
  obtain ⟨rfl, rfl, rfl, rfl, rfl, rfl, rfl, rfl⟩ := hc
  exact { h with }

theorem State.Inv.respond {s : State} (h : s.Inv) (st : Status) (v : Option Word) : (s.respond st v).Inv :=
  h.of_sameCore (s.sameCore_respond st v)

theorem State.Inv.resetEvent {s : State} (h : s.Inv) : s.resetEvent.Inv :=
  (State.resetWith_inv (Nat.one_le_of_lt h.cur_lt)).of_sameCore ⟨rfl, rfl, rfl, rfl, rfl, rfl, rfl, rfl⟩

theorem State.Inv.openComputation {s : State} (h : s.Inv) (v : Word) (o : Orientation) (ht : s.hasTable = true) :
    (s.openComputation v o).Inv :=
  { h with active_table := fun _ => ht, reg_iff := ⟨fun _ => rfl, fun _ => rfl⟩ }

theorem State.Inv.writeReg {s : State} (h : s.Inv) (v : Word) (hp : s.phase = .active) : (s.writeReg v).Inv :=
  { h with reg_iff := ⟨fun _ => hp, fun _ => rfl⟩ }

theorem State.Inv.endComputation {s : State} (h : s.Inv) : s.endComputation.Inv :=
  { h with active_table := nofun, reg_iff := ⟨nofun, nofun⟩ }

theorem State.Inv.selectSlot {s : State} (h : s.Inv) {k : Nat} (hk : s.slotValid k = true) : (s.selectSlot k).Inv :=
  { h with
    cur_lt := State.lt_of_slotValid hk
    table_iff := ⟨fun _ => h.table_iff.1 (h.valid_table k hk), fun _ => hk⟩
    valid_table := fun _ _ => hk
    active_table := fun _ => hk }

/-! ### The miss -/

/-- After a run into the slot `FILL_PTR` names, `FILL_PTR` moved on: the slots fill in the order 0, 1, 2, … (R31). -/
theorem State.Inv.fillSlot_fill_order {s : State} (h : s.Inv) (c : PolyConfig) :
    (∀ k, k < s.slots.length → (s.fillSlot c s.fillPtr).slotValid k = true) ∨
      ∀ k, (s.fillSlot c s.fillPtr).slotValid k = true ↔ k < (s.fillPtr + 1) % s.slots.length := by
  have hp := h.fillPtr_lt
  simp only [State.slotValid_fillSlot c hp]
  rcases h.fill_order with all | upTo
  · exact .inl fun k hk => .inr (all k hk)
  · simp only [upTo]
    rcases Nat.lt_or_ge (s.fillPtr + 1) s.slots.length with room | last
    · rw [Nat.mod_eq_of_lt room]
      exact .inr fun k => by omega
    · exact .inl fun k hk => by omega

/-- A run for a config that no valid slot holds keeps the tags apart (R33). -/
theorem State.Inv.fillSlot_tags_unique {s : State} (h : s.Inv) {c : PolyConfig} (hc : s.findTag c = none)
    {j k : Nat} (hj : (s.fillSlot c s.fillPtr).slotValid j = true)
    (hk : (s.fillSlot c s.fillPtr).slotValid k = true)
    (e : (s.fillSlot c s.fillPtr).slotTag j = (s.fillSlot c s.fillPtr).slotTag k) : j = k := by
  have new := State.slotTag_fillSlot_same c h.fillPtr_lt
  have fresh := State.findTag_none.1 hc
  rw [State.slotValid_fillSlot c h.fillPtr_lt] at hj hk
  by_cases hj' : j = s.fillPtr <;> by_cases hk' : k = s.fillPtr
  · rw [hj', hk']
  · rw [hj', new, State.slotTag_fillSlot_other s c hk'] at e
    exact absurd e.symm (fresh k (hk.resolve_left hk'))
  · rw [hk', new, State.slotTag_fillSlot_other s c hj'] at e
    exact absurd e (fresh j (hj.resolve_left hj'))
  · rw [State.slotTag_fillSlot_other s c hj', State.slotTag_fillSlot_other s c hk'] at e
    exact h.tags_unique j k (hj.resolve_left hj') (hk.resolve_left hk') e

/-- A `BUILD` that misses keeps the invariant: the run, then `CUR`, `FILL_PTR` and `GEN_COUNT`. -/
theorem State.Inv.fillSlot_countRun {s : State} (h : s.Inv) {c : PolyConfig} (hc : s.findTag c = none) :
    ((s.fillSlot c s.fillPtr).countRun s.fillPtr).Inv := by
  have hp := h.fillPtr_lt
  have table : ((s.fillSlot c s.fillPtr).countRun s.fillPtr).hasTable = true := by
    rw [State.countRun_hasTable, State.slotValid_fillSlot c hp]
    exact .inl rfl
  exact
    { cur_lt := by simpa using hp
      fillPtr_lt := by simpa using Nat.mod_lt _ (Nat.zero_lt_of_lt hp)
      slot_ok := fun sl hsl => by
        rw [State.countRun_slots] at hsl
        rcases State.mem_fillSlot_slots hsl with old | new
        · exact h.slot_ok sl old
        · exact .inr ⟨c, new⟩
      tags_unique := fun j k => by
        simp only [State.countRun_slotValid, State.countRun_slotTag]
        exact h.fillSlot_tags_unique hc
      fill_order := by simpa using h.fillSlot_fill_order c
      table_iff := by simp only [table, State.countRun_genCount, ne_eq, bumpCount_ne_zero, not_false_eq_true]
      valid_table := fun _ _ => table
      active_table := fun _ => table
      reg_iff := h.reg_iff
      gen_none := h.gen_none }

/-! ### Every step -/

theorem State.Inv.of_execBuild {s t : State} (h : s.Inv) {o : Orientation} {d : Word}
    (ht : execBuild o d s = .next t) : t.Inv := by
  rcases execBuild_eq_next ht with ⟨-, rfl⟩ | ⟨-, k, hk, rfl⟩ | ⟨hp, hk, -, -⟩
  · exact h.respond _ _
  · exact (h.selectSlot (State.findTag_some hk).1).respond _ _
  · rw [execBuild_of_miss hp hk, buildMiss_eq_fillSlot _ h.fillPtr_lt h.gen_none] at ht
    cases ht
    exact (h.fillSlot_countRun hk).respond _ _

theorem State.Inv.of_exec {s t : State} (h : s.Inv) {i : Instr} (ht : exec i s = .next t) : t.Inv := by
  rcases Instr.isBuild_or_not i with ⟨o, d, rfl⟩ | hi
  · exact h.of_execBuild ht
  · rcases exec_eq_next hi ht with ⟨st, -, rfl⟩ | ⟨v, -, -, rfl⟩ | ⟨o, -, -, hh, rfl⟩ | ⟨b, -, hp, rfl⟩ |
      ⟨-, -, rfl⟩ | ⟨k, -, -, rfl⟩
    · exact h.respond _ _
    · exact h.respond _ _
    · exact (h.openComputation _ o hh).respond _ _
    · exact (h.writeReg _ hp).respond _ _
    · exact h.endComputation.respond _ _
    · exact h.endComputation.respond _ _

theorem State.Inv.of_execWord {s t : State} (h : s.Inv) {w : CmdWord} (ht : execWord w s = .next t) : t.Inv := by
  cases hd : decode w with
  | instr i =>
    rw [execWord_of_instr hd] at ht
    exact h.of_exec ht
  | reject why =>
    rw [execWord_of_reject hd] at ht
    cases ht
    exact h.respond _ _

theorem State.Inv.of_hostStep {s t : State} (h : s.Inv) (ht : hostStep s = .next t) : t.Inv := by
  rcases hostStep_sameCore_or_reset ht with hc | ⟨rest, -, rfl⟩
  · exact h.of_sameCore hc
  · exact (h.of_sameCore (t := { s with host := rest }) ⟨rfl, rfl, rfl, rfl, rfl, rfl, rfl, rfl⟩).resetEvent

/-! ### The obligations -/

/-- Settles O15: a step executes an accepted word or is an act of the host, and each keeps the invariant. -/
theorem stepKeepsTheInvariant : Obligations.StepKeepsTheInvariant := by
  intro s t h ht
  cases ha : s.acceptable with
  | some w =>
    rw [step_of_acceptable_some ha] at ht
    exact (h.of_sameCore s.sameCore_acceptCommand).of_execWord ht
  | none =>
    rw [step_of_acceptable_none ha] at ht
    exact h.of_hostStep ht

/-- Settles O14. -/
theorem resetMeetsTheInvariant : Obligations.ResetMeetsTheInvariant :=
  ⟨fun _ hn => State.resetWith_inv hn, State.resetWith_inv (by decide)⟩

/-- Settles O13: no slot is valid, so no table is current and every bit of `STATUS` is 0. -/
theorem resetValuesAreTheSpecs : Obligations.ResetValuesAreTheSpecs := by
  intro n
  have status : (State.resetWith n).statusWord = 0#32 := by
    rw [State.statusWord, State.curOrientBit, State.resetWith_hasTable, if_neg Bool.false_ne_true,
      show (State.resetWith n).accOrient = .reflected from rfl, show (State.resetWith n).phase = .idle from rfl]
    rfl
  exact ⟨rfl, rfl, State.resetWith_slots_length n, State.resetWith_slots_blank n, rfl, rfl, rfl, rfl, rfl, status,
    State.resetWith_hasTable n⟩

end Sys2Proof.Machine
end

section
/-! What a command can write and what its answer can depend on (10_state.md): the phase (R26), the table store and its
count (R27, R28, R32), `REG` (R21), and the status reads (43_system_commands.md R184). -/

namespace Sys2Proof.Machine

/-! ### The phase -/

/-- A command changes the phase only as a `START` that finds a table, or as the end of a computation (R26). -/
theorem exec_phase_change {i : Instr} {s t : State} (h : exec i s = .next t) (hne : t.phase ≠ s.phase) :
    (s.phase = .idle ∧ t.phase = .active ∧ s.hasTable = true ∧ ∃ o, i = .start o) ∨
    (s.phase = .active ∧ t.phase = .idle ∧ (i = .finish ∨ ∃ k, i = .fail k)) := by
  rcases Instr.isBuild_or_not i with ⟨o, d, rfl⟩ | hi
  · exact absurd (execBuild_phase h) hne
  · rcases exec_eq_next hi h with ⟨st, -, rfl⟩ | ⟨v, -, -, rfl⟩ | ⟨o, rfl, hp, hh, rfl⟩ | ⟨b, -, -, rfl⟩ |
      ⟨rfl, hp, rfl⟩ | ⟨k, rfl, hp, rfl⟩
    · exact absurd rfl hne
    · exact absurd rfl hne
    · exact .inl ⟨hp, rfl, hh, o, rfl⟩
    · exact absurd rfl hne
    · exact .inr ⟨hp, rfl, .inl rfl⟩
    · exact .inr ⟨hp, rfl, .inr ⟨k, rfl⟩⟩

/-- Settles O52: an accepted word changes the phase as its instruction does, and of the host's acts only a reset does. -/
theorem phaseTransitions : Obligations.PhaseTransitions := by
  intro s t h hne
  cases ha : s.acceptable with
  | some w =>
    rw [step_of_acceptable_some ha] at h
    cases hd : decode w with
    | instr i =>
      rw [execWord_of_instr hd] at h
      rcases exec_phase_change h hne with ⟨hp, hp', hh, o, rfl⟩ | ⟨hp, hp', hi⟩
      · exact .inl ⟨hp, hp', hh, w, o, rfl, hd⟩
      · refine .inr ⟨hp, hp', .inl ⟨w, rfl, ?_⟩⟩
        simpa only [hd, Decoded.instr.injEq] using hi
    | reject why =>
      rw [execWord_of_reject hd] at h
      cases h
      exact absurd rfl hne
  | none =>
    rw [step_of_acceptable_none ha] at h
    rcases hostStep_sameCore_or_reset h with ⟨-, -, same, -⟩ | ⟨rest, hh, rfl⟩
    · exact absurd same hne
    · have hp : s.phase = .active := by
        cases hp : s.phase with
        | active => rfl
        | idle => exact absurd hp.symm hne
      exact .inr ⟨hp, rfl, .inr ⟨rfl, by rw [hh]; rfl⟩⟩

/-! ### The table store and its count -/

/-- Settles O53: a refused `BUILD` and every other command keep the store. -/
theorem onlyBuildInIdleWritesTheStore : Obligations.OnlyBuildInIdleWritesTheStore := by
  intro w s t h hstore
  cases hd : decode w with
  | reject why =>
    rw [execWord_of_reject hd] at h
    cases h
    exact absurd ⟨rfl, rfl, rfl, rfl⟩ hstore
  | instr i =>
    rw [execWord_of_instr hd] at h
    rcases Instr.isBuild_or_not i with ⟨o, d, rfl⟩ | hi
    · cases hp : s.phase with
      | idle => exact ⟨rfl, o, d, rfl⟩
      | active =>
        cases (execBuild_of_active o d hp).symm.trans h
        exact absurd ⟨rfl, rfl, rfl, rfl⟩ hstore
    · obtain ⟨hslots, hcur, hfill, hcount, -⟩ := exec_store hi h
      exact absurd ⟨hslots, hcur, hfill, hcount⟩ hstore

/-- Settles O30: of the three branches of `BUILD` only the miss counts a run, and no other command does. -/
theorem genCountAddsOnePerRunAndSaturates : Obligations.GenCountAddsOnePerRunAndSaturates := by
  intro i s t h
  rcases Instr.isBuild_or_not i with ⟨o, d, rfl⟩ | hi
  · rcases execBuild_eq_next h with ⟨hp, rfl⟩ | ⟨hp, k, hk, rfl⟩ | ⟨hp, hk, -, rfl⟩
    · exact .inl ⟨rfl, fun o' d' _ hidle => nomatch hp.symm.trans hidle⟩
    · refine .inl ⟨rfl, fun o' d' e _ => ⟨k, ?_⟩⟩
      cases e
      exact State.findTag_some hk
    · exact .inr ⟨⟨o, d, rfl, hp, State.findTag_none.1 hk⟩, bumpCount_eq s.genCount⟩
  · obtain ⟨-, -, -, hcount, -⟩ := exec_store hi h
    exact .inl ⟨hcount, fun o d e => absurd e (hi o d)⟩

/-- Settles O28: the `BUILD` misses, and its slot does not exist. -/
theorem buildFaultsOutsideTheStore : Obligations.BuildFaultsOutsideTheStore := by
  intro s o d hp hfill hmiss
  calc exec (.build o d) s
    _ = buildMiss ⟨d, o⟩ s := execBuild_of_miss hp (State.findTag_none.2 hmiss)
    _ = .fault (.noSuchSlot s.fillPtr) := if_neg (Nat.not_lt.2 hfill)

/-! ### `REG` -/

/-- `REG` plays no part in an execution but through `FINISH`: with another value in it, the next state differs in `REG`
alone. -/
theorem exec_reg {i : Instr} {s t : State} (v : Option Word) (hi : i ≠ .finish) (h : exec i s = .next t) :
    ∃ u, exec i { s with reg := v } = .next { t with reg := u } := by
  cases i with
  | build o d =>
    refine ⟨v, ?_⟩
    rcases execBuild_eq_next h with ⟨hp, rfl⟩ | ⟨hp, k, hk, rfl⟩ | ⟨hp, hk, hf, rfl⟩
    · exact execBuild_of_active (s := { s with reg := v }) o d hp
    · exact execBuild_of_hit (s := { s with reg := v }) hp hk
    · exact (execBuild_of_miss (s := { s with reg := v }) hp hk).trans
        (buildMiss_eq_next d o { s with reg := v } hf)
  | rdtab idx =>
    refine ⟨v, ?_⟩
    simp only [exec, execRdtab] at h
    split at h
    · next hh => cases h; exact if_pos hh
    · next hh => cases h; exact if_neg hh
  | start o =>
    obtain ⟨reg, gen, phase, ao, sl, cu, fp, gc, cp, rp, ho, ob⟩ := s
    cases phase with
    | active => cases h; exact ⟨v, rfl⟩
    | idle =>
      simp only [exec, execStart] at h
      split at h
      · next hh => cases h; exact ⟨some crcInit, if_pos hh⟩
      · next hh => cases h; exact ⟨v, if_neg hh⟩
  | byte b =>
    obtain ⟨reg, gen, phase, ao, sl, cu, fp, gc, cp, rp, ho, ob⟩ := s
    cases phase <;> cases h <;> exact ⟨_, rfl⟩
  | finish => exact absurd rfl hi
  | fail k =>
    obtain ⟨reg, gen, phase, ao, sl, cu, fp, gc, cp, rp, ho, ob⟩ := s
    cases phase <;> cases h <;> exact ⟨_, rfl⟩
  | rdsrStatus => cases h; exact ⟨v, rfl⟩
  | rdsrDivisor =>
    refine ⟨v, ?_⟩
    simp only [exec, execRdsrDivisor] at h
    split at h
    · next hh => cases h; exact if_pos hh
    · next hh => cases h; exact if_neg hh
  | rdsrGencount => cases h; exact ⟨v, rfl⟩
  | reservedOp0 rest => cases h; exact ⟨v, rfl⟩
  | reservedOp8F op rest => cases h; exact ⟨v, rfl⟩

/-- Settles O54: the two next states differ in `REG` alone, so they hold the same response. -/
theorem registerShowsOnlyInFinish : Obligations.RegisterShowsOnlyInFinish := by
  intro i s t t' v hi h h'
  obtain ⟨u, hu⟩ := exec_reg v hi h
  rw [h', Host.Outcome.next.injEq] at hu
  rw [hu]

/-! ### The status reads -/

/-- A word of four bits below 28 zeros, bit by bit. -/
theorem four_flags_bits (b3 b2 b1 b0 : BitVec 1) :
    (0#28 ++ b3 ++ b2 ++ b1 ++ b0).getLsbD 0 = b0.getLsbD 0 ∧
    (0#28 ++ b3 ++ b2 ++ b1 ++ b0).getLsbD 1 = b1.getLsbD 0 ∧
    (0#28 ++ b3 ++ b2 ++ b1 ++ b0).getLsbD 2 = b2.getLsbD 0 ∧
    (0#28 ++ b3 ++ b2 ++ b1 ++ b0).getLsbD 3 = b3.getLsbD 0 ∧
    (0#28 ++ b3 ++ b2 ++ b1 ++ b0).extractLsb' 4 28 = 0#28 := by
  revert b3 b2 b1 b0
  decide

theorem Phase.bit_getLsbD (p : Phase) : p.bit.getLsbD 0 = true ↔ p = .active := by cases p <;> decide

theorem Orientation.bit_getLsbD (o : Orientation) : o.bit.getLsbD 0 = true ↔ o = .normal := by cases o <;> decide

theorem State.curOrientBit_getLsbD (s : State) :
    s.curOrientBit.getLsbD 0 = true ↔ s.hasTable = true ∧ (s.slotTag s.cur).orientation = .normal := by
  rw [State.curOrientBit]
  split
  · next hh => rw [Orientation.bit_getLsbD, hh, eq_self, true_and]
  · next hh => simp [hh]

/-- Settles O46: the word is `STATUS` itself, whose bits are the four flags of R34. -/
theorem statusWordBits : Obligations.StatusWordBits := by
  intro s
  obtain ⟨bit0, bit1, bit2, bit3, rest⟩ :=
    four_flags_bits s.curOrientBit (BitVec.ofBool s.hasTable) s.accOrient.bit s.phase.bit
  refine ⟨s.statusWord, rfl, ?_, ?_, ?_, ?_, rest⟩
  · exact bit0 ▸ Phase.bit_getLsbD s.phase
  · exact bit1 ▸ Orientation.bit_getLsbD s.accOrient
  · exact Bool.eq_iff_iff.1 (bit2.trans (BitVec.getLsbD_ofBool s.hasTable 0))
  · exact bit3 ▸ s.curOrientBit_getLsbD

/-- Settles O47. -/
theorem divisorAndCountReads : Obligations.DivisorAndCountReads := fun _ =>
  ⟨fun hh => if_pos hh, rfl⟩

end Sys2Proof.Machine
end

section
/-! What a command that only answers leaves unchanged (43_system_commands.md R184, R185; 40_table_generator.md R115). -/

namespace Sys2Proof.Machine

/-- An answer writes the response port alone: the core, the host's side and every entry of the store stay (R56). -/
theorem State.respond_frame (s : State) (st : Status) (v : Option Word) :
    SameCore s (s.respond st v) ∧ SameHost s (s.respond st v) ∧ ∀ k j, (s.respond st v).tabRead k j = s.tabRead k j :=
  ⟨s.sameCore_respond st v, ⟨rfl, rfl, rfl⟩, s.respond_tabRead st v⟩

/-- Settles O55: of all that a command other than `BUILD` can do, only a refusal and a read are left, and each is one
answer. -/
theorem frameOfReadsAndReserved : Obligations.FrameOfReadsAndReserved := by
  intro i s t hi h
  have notBuild : ∀ o d, i ≠ .build o d := by
    rintro o d rfl
    exact hi
  rcases exec_eq_next notBuild h with ⟨st, -, rfl⟩ | ⟨v, -, -, rfl⟩ | ⟨o, rfl, -⟩ | ⟨b, rfl, -⟩ | ⟨rfl, -⟩ | ⟨k, rfl, -⟩
  · exact s.respond_frame st none
  · exact s.respond_frame .ok (some v)
  · exact False.elim hi
  · exact False.elim hi
  · exact False.elim hi
  · exact False.elim hi

end Sys2Proof.Machine
end

section
/-! The decoder against the encoder and the opcode table (30_encoding.md R72, R79 to R83): the word of an instruction
decodes to it, a word that decodes selects its instruction's row, and a word that selects a row is the word of an
instruction. -/

namespace Sys2Proof

/-! ### Fields and opcodes -/

theorem packWord_eq_of_fields {w : CmdWord} {op : BitVec 4} {o : BitVec 1} {d : Word} (hop : opField w = op)
    (hrsv : rsvField w = 0#3) (ho : oField w = o) (hd : dataField w = d) : packWord op o d = w := by
  rw [← hop, ← ho, ← hd, packWord_fields w hrsv]

/-- The opcodes that are not reserved are 1 to 7 (R79). -/
theorem opcode_cases {op : BitVec 4} (h0 : op ≠ 0#4) (h8 : ¬ 8 ≤ op.toNat) :
    op = 1#4 ∨ op = 2#4 ∨ op = 3#4 ∨ op = 4#4 ∨ op = 5#4 ∨ op = 6#4 ∨ op = 7#4 := by
  revert op; decide

@[simp] theorem extract_low_byte_append (b : Byte) : BitVec.extractLsb' (n := 32) 0 8 (0#24 ++ b) = b :=
  BitVec.extractLsb'_append_eq_right

/-! ### Decoding the word of an instruction -/

/-- A word of a legal opcode whose must-be-zero fields are 0 is decoded by its operands (R80, R82). -/
theorem decode_packWord {op : BitVec 4} {o : BitVec 1} {d : Word} (h0 : op ≠ 0#4) (h8 : ¬ 8 ≤ op.toNat)
    (ho : usesOrientation op = true ∨ o = 0#1) (hd : d &&& ~~~ dataOperandMask op = 0#32) :
    decode (packWord op o d) = decodeOperands (packWord op o d) := by
  have unusedIsZero : ¬ (usesOrientation op = false ∧ o ≠ 0#1) := by
    rintro ⟨unused, hne⟩
    exact hne (ho.resolve_left (Bool.not_eq_true _ ▸ unused))
  simp [decode, h0, h8, hd, unusedIsZero]

/-- The decoder reads every operand back from the word of a well-formed instruction (R81). -/
theorem decode_encode (i : Instr) (h : i.wellFormed = true) : decode (encode i) = .instr i := by
  cases i with
  | build o d =>
    refine (decode_packWord (by decide) (by decide) (.inl rfl) BitVec.and_zero).trans ?_
    simp [decodeOperands]
  | rdtab idx =>
    refine (decode_packWord (by decide) (by decide) (.inr rfl) (Laws.low_byte_row idx)).trans ?_
    simp [decodeOperands]
  | start o =>
    refine (decode_packWord (by decide) (by decide) (.inl rfl) rfl).trans ?_
    simp [decodeOperands]
  | byte b =>
    refine (decode_packWord (by decide) (by decide) (.inr rfl) (Laws.low_byte_row b)).trans ?_
    simp [decodeOperands]
  | finish => decide
  | fail k => cases k <;> decide
  | rdsrStatus => decide
  | rdsrDivisor => decide
  | rdsrGencount => decide
  | reservedOp0 rest => simp [encode, decode]
  | reservedOp8F op rest =>
    have h8 : 8 ≤ op.toNat := of_decide_eq_true h
    have h0 : op ≠ 0#4 := by rintro rfl; exact absurd h8 (by decide)
    simp [encode, decode, h0, h8]

/-! ### The row a word selects -/

/-- What the decoder asks of a word of a legal opcode before it reads the operands (R82). -/
theorem fields_of_decode {w : CmdWord} {i : Instr} (h0 : opField w ≠ 0#4) (h8 : ¬ 8 ≤ (opField w).toNat)
    (h : decode w = .instr i) :
    rsvField w = 0#3 ∧ (usesOrientation (opField w) = false → oField w = 0#1) ∧
      dataField w &&& ~~~ dataOperandMask (opField w) = 0#32 ∧ decodeOperands w = .instr i := by
  rw [decode, if_neg h0, if_neg h8] at h
  split at h
  · cases h
  next hrsv =>
  split at h
  · cases h
  next ho =>
  split at h
  · cases h
  next hd => exact ⟨not_not.1 hrsv, fun unused => not_not.1 fun hne => ho ⟨unused, hne⟩, not_not.1 hd, h⟩

/-- `RDSR` reads the register that `DATA` names. -/
theorem row_selects_of_decodeOperands_rdsr {w : CmdWord} {i : Instr} (hop : opField w = 7#4) (hrsv : rsvField w = 0#3)
    (ho : oField w = 0#1) (hd : dataField w &&& 0xFFFFFFFC#32 = 0#32) (h : decodeOperands w = .instr i) :
    i.row.selects w = true := by
  rw [and_highMask30] at hd
  simp only [decodeOperands, hop, BitVec.reduceEq, if_false] at h
  split at h
  · next hreg => cases h; exact (selects_rdsrStatus w).2 ⟨hop, hrsv, ho, by rw [hd, hreg]; rfl⟩
  split at h
  · next hreg => cases h; exact (selects_rdsrDivisor w).2 ⟨hop, hrsv, ho, by rw [hd, hreg]; rfl⟩
  split at h
  · next hreg => cases h; exact (selects_rdsrGencount w).2 ⟨hop, hrsv, ho, by rw [hd, hreg]; rfl⟩
  · cases h

/-- An instruction is read only from a word that selects the instruction's row. -/
theorem row_selects_of_decode {w : CmdWord} {i : Instr} (h : decode w = .instr i) : i.row.selects w = true := by
  by_cases h0 : opField w = 0#4
  · rw [decode, if_pos h0] at h
    cases h
    exact (selects_reservedOp0 _ w).2 h0
  by_cases h8 : 8 ≤ (opField w).toNat
  · rw [decode, if_neg h0, if_pos h8] at h
    cases h
    exact (selects_reservedOp8F _ _ w).2 h8
  obtain ⟨hrsv, ho, hd, hi⟩ := fields_of_decode h0 h8 h
  rcases opcode_cases h0 h8 with hop | hop | hop | hop | hop | hop | hop <;> rw [hop] at ho hd
  pick_goal 7
  · exact row_selects_of_decodeOperands_rdsr hop hrsv (ho rfl) hd hi
  all_goals simp only [decodeOperands, hop, BitVec.reduceEq, if_true, if_false] at hi; cases hi
  · exact (selects_build _ _ w).2 ⟨hop, hrsv⟩
  · exact (selects_rdtab _ w).2 ⟨hop, hrsv, ho rfl, hd⟩
  · exact (selects_start _ w).2 ⟨hop, hrsv, (and_ones32 _).symm.trans hd⟩
  · exact (selects_byte _ w).2 ⟨hop, hrsv, ho rfl, hd⟩
  · exact (selects_finish w).2 ⟨hop, hrsv, ho rfl, (and_ones32 _).symm.trans hd⟩
  · exact (selects_fail _ w).2 ⟨hop, hrsv, ho rfl, hd⟩

/-- A word that selects the row of an instruction is the word of a well-formed instruction, with operands of its own. -/
theorem exists_encode_eq_of_row_selects {w : CmdWord} {i : Instr} (h : i.row.selects w = true) :
    ∃ j : Instr, j.wellFormed = true ∧ encode j = w := by
  cases i with
  | build o d =>
    obtain ⟨hop, hrsv⟩ := (selects_build o d w).1 h
    exact ⟨.build (.ofBit (oField w)) (dataField w), rfl,
      packWord_eq_of_fields hop hrsv (Orientation.bit_ofBit _).symm rfl⟩
  | rdtab idx =>
    obtain ⟨hop, hrsv, ho, hd⟩ := (selects_rdtab idx w).1 h
    exact ⟨.rdtab ((dataField w).extractLsb' 0 8), rfl, packWord_eq_of_fields hop hrsv ho ((and_highMask24 _).1 hd)⟩
  | start o =>
    obtain ⟨hop, hrsv, hd⟩ := (selects_start o w).1 h
    exact ⟨.start (.ofBit (oField w)), rfl, packWord_eq_of_fields hop hrsv (Orientation.bit_ofBit _).symm hd⟩
  | byte b =>
    obtain ⟨hop, hrsv, ho, hd⟩ := (selects_byte b w).1 h
    exact ⟨.byte ((dataField w).extractLsb' 0 8), rfl, packWord_eq_of_fields hop hrsv ho ((and_highMask24 _).1 hd)⟩
  | finish =>
    obtain ⟨hop, hrsv, ho, hd⟩ := (selects_finish w).1 h
    exact ⟨.finish, rfl, packWord_eq_of_fields hop hrsv ho hd⟩
  | fail k =>
    obtain ⟨hop, hrsv, ho, hd⟩ := (selects_fail k w).1 h
    refine ⟨.fail (.ofBit ((dataField w).extractLsb' 0 1)), rfl, packWord_eq_of_fields hop hrsv ho ?_⟩
    rw [FailKind.bit_ofBit]
    exact (and_highMask31 _).1 hd
  | rdsrStatus =>
    obtain ⟨hop, hrsv, ho, hd⟩ := (selects_rdsrStatus w).1 h
    exact ⟨.rdsrStatus, rfl, packWord_eq_of_fields hop hrsv ho hd⟩
  | rdsrDivisor =>
    obtain ⟨hop, hrsv, ho, hd⟩ := (selects_rdsrDivisor w).1 h
    exact ⟨.rdsrDivisor, rfl, packWord_eq_of_fields hop hrsv ho hd⟩
  | rdsrGencount =>
    obtain ⟨hop, hrsv, ho, hd⟩ := (selects_rdsrGencount w).1 h
    exact ⟨.rdsrGencount, rfl, packWord_eq_of_fields hop hrsv ho hd⟩
  | reservedOp0 rest =>
    have hop := (selects_reservedOp0 rest w).1 h
    exact ⟨.reservedOp0 (restField w), rfl, by rw [encode, ← hop, op_append_rest]⟩
  | reservedOp8F op rest =>
    have h8 := (selects_reservedOp8F op rest w).1 h
    exact ⟨.reservedOp8F (opField w) (restField w), decide_eq_true h8, op_append_rest w⟩

/-- A word that selects a row decodes (R83). -/
theorem exists_decode_of_row_selects {w : CmdWord} {i : Instr} (h : i.row.selects w = true) :
    ∃ j, decode w = .instr j := by
  obtain ⟨j, hj, rfl⟩ := exists_encode_eq_of_row_selects h
  exact ⟨j, decode_encode j hj⟩

/-! ### The table's rows -/

theorem exists_row_of_mem_opcodeTable {r : OpcodeRow} (h : r ∈ opcodeTable) : ∃ i : Instr, r = i.row := by
  simp only [opcodeTable, List.mem_cons, List.not_mem_nil, or_false] at h
  rcases h with h | h | h | h | h | h | h | h | h | h | h <;> exact ⟨_, h⟩

/-- Where two rows are selected by one word, their values agree on the bits that both masks look at. -/
theorem OpcodeRow.values_agree_of_selects {r r' : OpcodeRow} {w : CmdWord} (h : r.selects w = true)
    (h' : r'.selects w = true) : r.value &&& r'.mask = r'.value &&& r.mask := by
  rw [OpcodeRow.selects, beq_iff_eq] at h h'
  rw [← h, ← h', BitVec.and_assoc, BitVec.and_assoc, BitVec.and_comm r.mask]

/-- The rows differ pairwise in a bit that both masks look at, so a word selects at most one. -/
theorem row_eq_of_selects {r r' : OpcodeRow} {w : CmdWord} (hr : r ∈ opcodeTable) (hr' : r' ∈ opcodeTable)
    (h : r.selects w = true) (h' : r'.selects w = true) : r = r' := by
  have pairwise : ∀ r ∈ opcodeTable, ∀ r' ∈ opcodeTable, r.value &&& r'.mask = r'.value &&& r.mask → r = r' := by
    decide
  exact pairwise r hr r' hr' (OpcodeRow.values_agree_of_selects h h')

/-! ### The obligations -/

/-- Settles O2. -/
theorem decodeOfEncodeIsTheInstruction : Obligations.DecodeOfEncodeIsTheInstruction := decode_encode

/-- Settles O3: the word selects a row, so it is the word of an instruction, and O2 says which. -/
theorem decodedWordIsItsOwnEncoding : Obligations.DecodedWordIsItsOwnEncoding := by
  intro w i h
  obtain ⟨j, hj, rfl⟩ := exists_encode_eq_of_row_selects (row_selects_of_decode h)
  cases (decode_encode j hj).symm.trans h
  exact ⟨hj, rfl⟩

/-- Settles O4: the instruction's own row is selected, and two rows never are; a word that selects any decodes. -/
theorem decoderAgreesWithOpcodeTable : Obligations.DecoderAgreesWithOpcodeTable := by
  intro w
  constructor
  · intro i h
    have own : i.row.selects w = true := row_selects_of_decode h
    refine ⟨row_mem i, fun r hr => ⟨fun hsel => row_eq_of_selects hr (row_mem i) hsel own, ?_⟩⟩
    rintro rfl
    exact own
  · intro why h r hr
    rw [← Bool.not_eq_true]
    intro hsel
    obtain ⟨i, rfl⟩ := exists_row_of_mem_opcodeTable hr
    obtain ⟨j, hj⟩ := exists_decode_of_row_selects hsel
    exact absurd (h.symm.trans hj) nofun

/-- Settles O1: sixteen words decoded. -/
theorem specWordsDecodeAsListed : Obligations.SpecWordsDecodeAsListed := by
  unfold Obligations.SpecWordsDecodeAsListed
  decide

end Sys2Proof
end

section
/-! What every command is answered with: one response, `ERR_ILLEGAL` for a malformed word alone (30_encoding.md R75, R77,
R82, R83; 60_exceptions.md R203). -/

namespace Sys2Proof.Machine

/-! ### The instruction a word that is not malformed decodes to -/

/-- A word that is not malformed selects a row: R82's clauses leave exactly the fields that the row asks for. -/
theorem exists_row_selects_of_not_malformed {w : CmdWord} (h : ¬ Malformed w) : ∃ i : Instr, i.row.selects w = true := by
  simp only [Malformed, not_or, not_and, not_le, ne_eq, not_not] at h
  obtain ⟨h0, h8, hrsv, rdtab, start, byte, finish, fail, rdsr⟩ := h
  rcases opcode_cases h0 (Nat.not_le.2 h8) with hop | hop | hop | hop | hop | hop | hop
  · exact ⟨.build .reflected 0, (selects_build _ _ w).2 ⟨hop, hrsv⟩⟩
  · obtain ⟨ho, hd⟩ := rdtab hop
    exact ⟨.rdtab 0, (selects_rdtab _ w).2 ⟨hop, hrsv, ho, (and_highMask24_iff_lt _).2 hd⟩⟩
  · exact ⟨.start .reflected, (selects_start _ w).2 ⟨hop, hrsv, start hop⟩⟩
  · obtain ⟨ho, hd⟩ := byte hop
    exact ⟨.byte 0, (selects_byte _ w).2 ⟨hop, hrsv, ho, (and_highMask24_iff_lt _).2 hd⟩⟩
  · obtain ⟨ho, hd⟩ := finish hop
    exact ⟨.finish, (selects_finish w).2 ⟨hop, hrsv, ho, hd⟩⟩
  · obtain ⟨ho, hd⟩ := fail hop
    exact ⟨.fail .notFound, (selects_fail _ w).2 ⟨hop, hrsv, ho, (and_highMask31_iff_lt _).2 hd⟩⟩
  · obtain ⟨ho, hd⟩ := rdsr hop
    have registers : ∀ n < 3, n = 0 ∨ n = 1 ∨ n = 2 := by decide
    rcases registers _ hd with hn | hn | hn
    · exact ⟨.rdsrStatus, (selects_rdsrStatus w).2 ⟨hop, hrsv, ho, BitVec.eq_of_toNat_eq hn⟩⟩
    · exact ⟨.rdsrDivisor, (selects_rdsrDivisor w).2 ⟨hop, hrsv, ho, BitVec.eq_of_toNat_eq hn⟩⟩
    · exact ⟨.rdsrGencount, (selects_rdsrGencount w).2 ⟨hop, hrsv, ho, BitVec.eq_of_toNat_eq hn⟩⟩

/-- The word of a reserved opcode is malformed (R185). -/
theorem malformed_of_decode_reserved {w : CmdWord} {i : Instr} (h : decode w = .instr i)
    (hi : (∃ rest, i = .reservedOp0 rest) ∨ ∃ op rest, i = .reservedOp8F op rest) : Malformed w := by
  have sel := row_selects_of_decode h
  rcases hi with ⟨rest, rfl⟩ | ⟨op, rest, rfl⟩
  · exact .inl ((selects_reservedOp0 rest w).1 sel)
  · exact .inr (.inl ((selects_reservedOp8F op rest w).1 sel))

/-! ### The answers -/

/-- A `BUILD` that has a next state answers with no payload, and never `ERR_ILLEGAL`. -/
theorem execBuild_answer {o : Orientation} {d : Word} {s t : State} (h : execBuild o d s = .next t) :
    ∃ st, t.rspPort = some ⟨st, none⟩ ∧ st ≠ .errIllegal := by
  rcases execBuild_eq_next h with ⟨-, rfl⟩ | ⟨-, k, -, rfl⟩ | ⟨-, -, -, rfl⟩
  · exact ⟨.errSeq, rfl, nofun⟩
  · exact ⟨.ok, rfl, nofun⟩
  · exact ⟨.ok, rfl, nofun⟩

/-- `BUILD` has a next state whenever `FILL_PTR` names a slot. -/
theorem execBuild_total (o : Orientation) (d : Word) {s : State} (hf : s.fillPtr < s.slots.length) :
    ∃ t, execBuild o d s = .next t := by
  cases hp : s.phase with
  | active => exact ⟨_, execBuild_of_active o d hp⟩
  | idle =>
    cases hk : s.findTag ⟨d, o⟩ with
    | some k => exact ⟨_, execBuild_of_hit hp hk⟩
    | none => exact ⟨_, (execBuild_of_miss hp hk).trans (buildMiss_eq_next d o s hf)⟩

/-- A command that is no `BUILD` has a next state whatever the state, and it answers `ERR_ILLEGAL` only for a reserved
opcode. -/
theorem exec_answer {i : Instr} (hi : ∀ o d, i ≠ .build o d) (s : State) :
    ∃ t r, exec i s = .next t ∧ t.rspPort = some r ∧
      (r.status = .errIllegal → (∃ rest, i = .reservedOp0 rest) ∨ ∃ op rest, i = .reservedOp8F op rest) := by
  cases i with
  | build o d => exact absurd rfl (hi o d)
  | rdtab idx => rw [exec, execRdtab]; split <;> exact ⟨_, _, rfl, rfl, nofun⟩
  | start o =>
    rw [exec, execStart]
    split
    · exact ⟨_, _, rfl, rfl, nofun⟩
    · split <;> exact ⟨_, _, rfl, rfl, nofun⟩
  | byte b => rw [exec, execByte]; split <;> exact ⟨_, _, rfl, rfl, nofun⟩
  | finish => rw [exec, execFinish]; split <;> exact ⟨_, _, rfl, rfl, nofun⟩
  | fail k =>
    rw [exec, execFail]
    split
    · exact ⟨_, _, rfl, rfl, nofun⟩
    · exact ⟨_, _, rfl, rfl, by cases k <;> exact nofun⟩
  | rdsrStatus => exact ⟨_, _, rfl, rfl, nofun⟩
  | rdsrDivisor => rw [exec, execRdsrDivisor]; split <;> exact ⟨_, _, rfl, rfl, nofun⟩
  | rdsrGencount => exact ⟨_, _, rfl, rfl, nofun⟩
  | reservedOp0 rest => exact ⟨_, _, rfl, rfl, fun _ => .inl ⟨rest, rfl⟩⟩
  | reservedOp8F op rest => exact ⟨_, _, rfl, rfl, fun _ => .inr ⟨op, rest, rfl⟩⟩

/-- In a state that meets the invariant every word is executed, and answered. -/
theorem State.Inv.execWord_answer {s : State} (h : s.Inv) (w : CmdWord) :
    ∃ t r, execWord w s = .next t ∧ t.rspPort = some r := by
  cases hd : decode w with
  | reject why => exact ⟨_, _, execWord_of_reject hd s, rfl⟩
  | instr i =>
    rw [execWord_of_instr hd]
    rcases Instr.isBuild_or_not i with ⟨o, d, rfl⟩ | hi
    · obtain ⟨t, ht⟩ := execBuild_total o d h.fillPtr_lt
      obtain ⟨st, hst, -⟩ := execBuild_answer ht
      exact ⟨t, _, ht, hst⟩
    · obtain ⟨t, r, ht, hr, -⟩ := exec_answer hi s
      exact ⟨t, r, ht, hr⟩

/-- The host's acts raise no fault. -/
theorem hostStep_ne_fault (s : State) (f : Fault) : hostStep s ≠ .fault f := by
  rw [hostStep]
  split
  · nofun
  · rw [offerCommand]
    split
    · nofun
    · split <;> nofun
  · nofun
  · nofun

/-! ### The obligations -/

/-- Settles O6: a word that is not malformed decodes, and not to a reserved opcode. -/
theorem onlyMalformedWordsAreIllegal : Obligations.OnlyMalformedWordsAreIllegal := by
  intro w s t hw h
  obtain ⟨row, hrow⟩ := exists_row_selects_of_not_malformed hw
  obtain ⟨i, hd⟩ := exists_decode_of_row_selects hrow
  rw [execWord_of_instr hd] at h
  rcases Instr.isBuild_or_not i with ⟨o, d, rfl⟩ | hi
  · obtain ⟨st, hst, hne⟩ := execBuild_answer h
    exact ⟨_, hst, hne⟩
  · obtain ⟨t', r, ht', hr, hill⟩ := exec_answer hi s
    cases ht'.symm.trans h
    exact ⟨r, hr, fun hst => hw (malformed_of_decode_reserved hd (hill hst))⟩

/-- Settles O16: an accepted word is executed in a state that still meets the invariant, and no act of the host
faults. -/
theorem everyWordHasANextStateAndAResponse : Obligations.EveryWordHasANextStateAndAResponse := by
  intro s h
  refine ⟨h.execWord_answer, fun f => ?_⟩
  cases ha : s.acceptable with
  | none =>
    rw [step_of_acceptable_none ha]
    exact hostStep_ne_fault s f
  | some w =>
    obtain ⟨t, -, ht, -⟩ := (h.of_sameCore s.sameCore_acceptCommand).execWord_answer w
    rw [step_of_acceptable_some ha, ht]
    nofun

/-- Settles O18: of all that a command can do, only a read and a successful `FINISH` answer with a payload. -/
theorem payloadExactlyOnSuccessfulRead : Obligations.PayloadExactlyOnSuccessfulRead := by
  intro i s t h
  rcases Instr.isBuild_or_not i with ⟨o, d, rfl⟩ | hi
  · obtain ⟨st, hst, -⟩ := execBuild_answer h
    exact ⟨_, hst, nofun, fun hok => hok.2.elim⟩
  · rcases exec_eq_next hi h with ⟨st, hst, rfl⟩ | ⟨v, hv, -, rfl⟩ | ⟨o, rfl, -, -, rfl⟩ | ⟨b, rfl, -, rfl⟩ |
      ⟨rfl, -, rfl⟩ | ⟨k, rfl, -, rfl⟩
    · refine ⟨_, rfl, nofun, fun ⟨hok, _⟩ => ?_⟩
      rcases hst with rfl | rfl | rfl <;> cases hok
    · exact ⟨_, rfl, fun _ => ⟨rfl, hv⟩, fun _ => rfl⟩
    · exact ⟨_, rfl, nofun, fun hok => hok.2.elim⟩
    · exact ⟨_, rfl, nofun, fun hok => hok.2.elim⟩
    · exact ⟨_, rfl, fun _ => ⟨rfl, trivial⟩, fun _ => rfl⟩
    · exact ⟨_, rfl, nofun, fun hok => hok.2.elim⟩

end Sys2Proof.Machine
end

section
/-! The response channel: the wire word of a response (30_encoding.md R76, R77), and a response that is pending or produced
by a step (R71 to R74, R82). -/

namespace Sys2Proof.Machine

/-! ### The response word -/

@[simp] theorem Status.ofCode_code (st : Status) : Status.ofCode st.code = some st := by cases st <;> rfl

/-- A response word has the fields of a command word (R72, R76), with `ST` for `OP` and `V` for `O`. -/
theorem Response.word_eq_packWord (undriven : Word) (r : Response) :
    r.word undriven = packWord r.status.code (.ofBool r.payload.isSome) (r.payload.getD undriven) := rfl

/-- The `V` bit. -/
theorem Response.word_getLsbD (undriven : Word) (r : Response) :
    (r.word undriven).getLsbD 32 = r.payload.isSome := by
  rw [Response.word_eq_packWord, packWord_getLsbD]
  exact BitVec.getLsbD_ofBool r.payload.isSome 0

theorem Response.ofWord_word (undriven : Word) (r : Response) : Response.ofWord (r.word undriven) = some r := by
  have st : (r.word undriven).extractLsb' 36 4 = r.status.code := opField_packWord _ _ _
  have data : (r.word undriven).extractLsb' 0 32 = r.payload.getD undriven := dataField_packWord _ _ _
  rw [Response.ofWord, st, data, Response.word_getLsbD, Status.ofCode_code]
  obtain ⟨status, payload⟩ := r
  cases payload <;> rfl

/-- Settles O7. -/
theorem responseWordCarriesTheResponse : Obligations.ResponseWordCarriesTheResponse := fun undriven r =>
  ⟨r.ofWord_word undriven, rsvField_packWord _ _ _, Bool.eq_iff_iff.1 (r.word_getLsbD undriven)⟩

/-! ### The response port -/

/-- While a response is pending no word is accepted (R74). -/
theorem State.acceptable_of_rspPort_some {s : State} {r : Response} (h : s.rspPort = some r) : s.acceptable = none := by
  simp [State.acceptable, State.cmdReady, h]

theorem State.deliver_of_rspPort_some {s : State} {r : Response} (h : s.rspPort = some r) :
    s.deliver = { s with rspPort := none, observed := s.observed ++ [r] } := by
  rw [State.deliver_eq, h]; rfl

/-- Settles O9. -/
theorem stepAnswersAWordThatSelectsNoRow : Obligations.StepAnswersAWordThatSelectsNoRow := by
  intro s w why hc hr hd
  have ha : s.acceptable = some w := (State.acceptable_of_rspPort_none hr).trans hc
  rw [step_of_acceptable_some ha, execWord_of_reject hd]
  rfl

/-- Settles O10: the step is the host's next act, and none of its acts but a reset changes the core. -/
theorem pendingResponseHoldsTheCore : Obligations.PendingResponseHoldsTheCore := by
  intro s t r hr hreset h
  rw [step_of_acceptable_none (State.acceptable_of_rspPort_some hr)] at h
  have core : SameCore s t := by
    rcases hostStep_sameCore_or_reset h with hc | ⟨rest, hh, -⟩
    · exact hc
    · exact absurd (congrArg List.head? hh) hreset
  refine ⟨core, ?_⟩
  rcases hostStep_eq_next h with ⟨hh, rfl⟩ | ⟨w, rest, hh, hc, rfl⟩ | ⟨rest, hh, rfl⟩ | ⟨rest, hh, -⟩
  · exact ⟨fun _ => rfl, fun ht => by simp [hh] at ht, fun _ => ⟨hr, rfl⟩⟩
  · refine ⟨fun hsome => ?_, fun ht => by simp [hh] at ht, fun _ => ⟨hr, rfl⟩⟩
    rcases hc with hc | hc
    · simp [hc] at hsome
    · exact hc.symm
  · rw [State.deliver_of_rspPort_some (s := { s with host := rest }) hr]
    exact ⟨fun _ => rfl, fun _ => ⟨rfl, rfl⟩, fun ht => absurd (congrArg List.head? hh) ht⟩
  · exact absurd (congrArg List.head? hh) hreset

end Sys2Proof.Machine
end

section
/-! The per-byte division (40_table_generator.md R100 to R107, R116): eight times one round, which is linear in the
register and the same in both orientations but for the order of the bits. -/

namespace Sys2Proof.Machine

/-! ### The division by the dispatcher's parts (42_orientation_dispatcher.md R162) -/

/-- One round of the division in either orientation: the round of R101 or R102, as the generation run makes it
(`GenRun.round`). -/
def divisionRound (d : Word) (o : Orientation) (r : Word) : Word :=
  if testedBit o r then shiftOne o r ^^^ d else shiftOne o r

theorem divideByte_eq_iterate (b : Byte) (d : Word) (o : Orientation) :
    divideByte b d o = (divisionRound d o)^[8] (loadByte o b) := by
  cases o <;> rfl

/-! ### Linearity -/

theorem loadByte_xor (o : Orientation) (a b : Byte) : loadByte o (a ^^^ b) = loadByte o a ^^^ loadByte o b := by
  cases o with
  | reflected => rw [loadByte, zext32, BitVec.setWidth_xor]; rfl
  | normal => rw [loadByte, zext32, BitVec.setWidth_xor, BitVec.shiftLeft_xor_distrib]; rfl

theorem testedBit_xor (o : Orientation) (x y : Word) : testedBit o (x ^^^ y) = (testedBit o x ^^ testedBit o y) := by
  cases o <;> exact BitVec.getLsbD_xor

theorem shiftOne_xor (o : Orientation) (x y : Word) : shiftOne o (x ^^^ y) = shiftOne o x ^^^ shiftOne o y := by
  cases o with
  | reflected => exact BitVec.ushiftRight_xor_distrib x y 1
  | normal => exact BitVec.shiftLeft_xor_distrib x y 1

/-- The divisor enters a round of `x ^^^ y` when it enters the round of exactly one of them; when it enters both, it
cancels. -/
theorem divisionRound_xor (d : Word) (o : Orientation) :
    Function.Semiconj₂ (divisionRound d o) (· ^^^ ·) (· ^^^ ·) := by
  intro x y
  have cancel : shiftOne o x ^^^ d ^^^ (shiftOne o y ^^^ d) = shiftOne o x ^^^ shiftOne o y := by
    calc
      _ = shiftOne o x ^^^ shiftOne o y ^^^ (d ^^^ d) := by ac_rfl
      _ = _ := by rw [BitVec.xor_self, BitVec.xor_zero]
  simp only [divisionRound, testedBit_xor, shiftOne_xor]
  cases testedBit o x <;> cases testedBit o y <;>
    simp only [Bool.xor_self, Bool.xor_false, Bool.xor_true, Bool.not_false, Bool.false_eq_true, if_true, if_false]
  · exact BitVec.xor_assoc ..
  · ac_rfl
  · exact cancel.symm

theorem divideByte_xor (a b : Byte) (d : Word) (o : Orientation) :
    divideByte (a ^^^ b) d o = divideByte a d o ^^^ divideByte b d o := by
  simp only [divideByte_eq_iterate, loadByte_xor]
  exact (divisionRound_xor d o).iterate 8 _ _

/-! ### Corner cases -/

/-- A linear map takes 0 to 0. -/
theorem divideByte_zero (d : Word) (o : Orientation) : divideByte 0#8 d o = 0#32 := by
  have h := divideByte_xor 0#8 0#8 d o
  rwa [BitVec.xor_self, BitVec.xor_self] at h

theorem divisionRound_zero_divisor (o : Orientation) : divisionRound 0#32 o = shiftOne o := by
  funext r
  rw [divisionRound, BitVec.xor_zero, ite_self]

theorem shiftOne_reflected_iterate (n : Nat) (r : Word) : (shiftOne .reflected)^[n] r = r >>> n := by
  induction n with
  | zero => exact (BitVec.ushiftRight_zero r).symm
  | succ n ih => rw [Function.iterate_succ_apply', ih, BitVec.shiftRight_add]; rfl

theorem shiftOne_normal_iterate (n : Nat) (r : Word) : (shiftOne .normal)^[n] r = r <<< n := by
  induction n with
  | zero => exact (BitVec.shiftLeft_zero r).symm
  | succ n ih => rw [Function.iterate_succ_apply', ih, BitVec.shiftLeft_add]; rfl

/-- Eight shifts take the byte out of the register. -/
theorem shiftOne_iterate_loadByte (o : Orientation) (b : Byte) : (shiftOne o)^[8] (loadByte o b) = 0#32 := by
  cases o with
  | reflected =>
    rw [shiftOne_reflected_iterate]
    apply BitVec.eq_of_getLsbD_eq
    intro i _
    simp [loadByte, zext32]
  | normal =>
    rw [shiftOne_normal_iterate, loadByte, ← BitVec.shiftLeft_add]
    exact BitVec.shiftLeft_eq_zero (by decide)

theorem divideByte_zero_divisor (b : Byte) (o : Orientation) : divideByte b 0#32 o = 0#32 := by
  rw [divideByte_eq_iterate, divisionRound_zero_divisor, shiftOne_iterate_loadByte]

/-- While the tested bit is 0 the rounds only shift. -/
theorem divisionRound_iterate_eq_shiftOne (d : Word) (o : Orientation) (r : Word) (n : Nat)
    (h : ∀ i < n, testedBit o ((shiftOne o)^[i] r) = false) : (divisionRound d o)^[n] r = (shiftOne o)^[n] r := by
  induction n with
  | zero => rfl
  | succ n ih =>
    rw [Function.iterate_succ_apply', ih fun i hi => h i (by omega), divisionRound, h n (by omega),
      Function.iterate_succ_apply']
    rfl

/-- Seven rounds only shift the one set bit of the byte to where it is tested; the eighth leaves the divisor. -/
theorem divideByte_last_bit (d : Word) :
    divideByte 0x80#8 d .reflected = d ∧ divideByte 0x01#8 d .normal = d := by
  have reflected : (divisionRound d .reflected)^[7] (loadByte .reflected 0x80#8) = 1#32 :=
    (divisionRound_iterate_eq_shiftOne d _ _ 7 (by decide)).trans (by decide)
  have normal : (divisionRound d .normal)^[7] (loadByte .normal 0x01#8) = 0x80000000#32 :=
    (divisionRound_iterate_eq_shiftOne d _ _ 7 (by decide)).trans (by decide)
  simp only [divideByte_eq_iterate, Function.iterate_succ_apply' _ 7, reflected, normal]
  exact ⟨BitVec.zero_xor, BitVec.zero_xor⟩

/-! ### The two orientations -/

theorem reverse_xor {w : Nat} (x y : BitVec w) : (x ^^^ y).reverse = x.reverse ^^^ y.reverse := by
  apply BitVec.eq_of_getLsbD_eq
  intro i hi
  simp only [BitVec.getLsbD_reverse, BitVec.getMsbD_xor, BitVec.getLsbD_xor]

theorem getLsbD_reverse_of_lt {w i : Nat} (x : BitVec w) (h : i < w) :
    x.reverse.getLsbD i = x.getLsbD (w - 1 - i) := by
  rw [BitVec.getLsbD_reverse, BitVec.getMsbD_eq_getLsbD, decide_eq_true h, Bool.true_and]

theorem loadByte_reverse (b : Byte) : (loadByte .reflected b).reverse = loadByte .normal b.reverse := by
  apply BitVec.eq_of_getLsbD_eq
  intro i hi
  rw [getLsbD_reverse_of_lt _ hi]
  simp only [loadByte, zext32, BitVec.getLsbD_shiftLeft, BitVec.getLsbD_setWidth]
  by_cases low : i < 24
  · simp [low, BitVec.getLsbD_of_ge b (31 - i) (by omega)]
  · rw [getLsbD_reverse_of_lt b (by omega), show 8 - 1 - (i - 24) = 32 - 1 - i by omega]
    simp [low, hi, show 31 - i < 32 by omega, show i - 24 < 32 by omega]

theorem testedBit_reverse (r : Word) : testedBit .normal r.reverse = testedBit .reflected r :=
  getLsbD_reverse_of_lt r (by decide)

theorem shiftOne_reverse (r : Word) : (shiftOne .reflected r).reverse = shiftOne .normal r.reverse := by
  apply BitVec.eq_of_getLsbD_eq
  intro i hi
  rw [getLsbD_reverse_of_lt _ hi]
  simp only [shiftOne, BitVec.getLsbD_ushiftRight, BitVec.getLsbD_shiftLeft]
  cases i with
  | zero => simp
  | succ i =>
    rw [Nat.add_sub_cancel, getLsbD_reverse_of_lt r (by omega), show 1 + (32 - 1 - (i + 1)) = 32 - 1 - i by omega]
    simp [hi]

theorem divisionRound_reverse (d : Word) :
    Function.Semiconj BitVec.reverse (divisionRound d .reflected) (divisionRound d.reverse .normal) := by
  intro r
  simp only [divisionRound, testedBit_reverse, ← shiftOne_reverse, ← reverse_xor, apply_ite BitVec.reverse]

theorem divideByte_reverse (b : Byte) (d : Word) :
    (divideByte b d .reflected).reverse = divideByte b.reverse d.reverse .normal := by
  simp only [divideByte_eq_iterate, ← loadByte_reverse]
  exact (divisionRound_reverse d).iterate_right 8 _

/-! ### The obligations -/

/-- Settles O19. -/
theorem zeroByteDividesToZero : Obligations.ZeroByteDividesToZero := fun d o =>
  ⟨divideByte_zero d o, divideByte_zero d o⟩

/-- Settles O20: the examples with numbers are evaluated, the rest holds for every divisor. -/
theorem divisionCornerCases : Obligations.DivisionCornerCases := by
  refine ⟨fun b o => ⟨divideByte_zero_divisor b o, divideByte_zero_divisor b o⟩,
    fun d => (divideByte_last_bit d).1, (divideByte_last_bit _).1, fun d => (divideByte_last_bit d).2,
    (divideByte_last_bit _).2, ?_, ?_, ?_, (divideByte_last_bit _).2⟩ <;> decide

/-- Settles O21. -/
theorem divisionIsLinear : Obligations.DivisionIsLinear := divideByte_xor

/-- Settles O22. -/
theorem reflectedDivisionIsReversedNormal : Obligations.ReflectedDivisionIsReversedNormal := fun b d => by
  rw [← divideByte_reverse, BitVec.reverse_reverse_eq]

end Sys2Proof.Machine
end

section
/-! `BUILD` and `RDTAB` (40_table_generator.md R108 to R115): the slot a hit finds, the slot a miss fills, and the table a
read is answered from. -/

namespace Sys2Proof.Machine

/-! ### The hit -/

/-- The hit test finds the slot that holds the config: by tag uniqueness (R33) there is no other. -/
theorem State.Inv.findTag_eq_some {s : State} (h : s.Inv) {c : PolyConfig} {k : Nat} (hv : s.slotValid k = true)
    (ht : s.slotTag k = c) : s.findTag c = some k := by
  cases hf : s.findTag c with
  | none => exact absurd ht (State.findTag_none.1 hf k hv)
  | some j =>
    obtain ⟨hv', ht'⟩ := State.findTag_some hf
    rw [h.tags_unique j k hv' hv (ht'.trans ht.symm)]

/-! ### The miss -/

theorem State.tabRead_fillSlot_same {s : State} (c : PolyConfig) {k : Nat} (hk : k < s.slots.length) (i : Byte) :
    (s.fillSlot c k).tabRead k i = divideByte i c.divisor c.orientation := by
  simp [State.tabRead, hk, tableOf]

/-! ### The current table -/

/-- A valid slot holds the whole table of its tag (R29). -/
theorem State.Inv.tabRead_eq {s : State} (h : s.Inv) {k : Nat} (hv : s.slotValid k = true) (i : Byte) :
    s.tabRead k i = divideByte i (s.slotTag k).divisor (s.slotTag k).orientation := by
  obtain ⟨sl, hsl, hmem, hvalid⟩ := State.slot_of_slotValid hv
  rcases h.slot_ok sl hmem with ⟨hblank, -⟩ | ⟨c, -, htag, hentry⟩
  · exact absurd (hblank.symm.trans hvalid) Bool.false_ne_true
  · simp only [State.tabRead, State.slotTag, hsl, hentry, htag, Option.getD_some, tableOf]

/-! ### The obligations -/

/-- Settles O27. -/
theorem buildRefusedDuringComputation : Obligations.BuildRefusedDuringComputation := fun _ o d hp =>
  execBuild_of_active o d hp

/-- Settles O24. -/
theorem buildHitSelectsTheSlot : Obligations.BuildHitSelectsTheSlot := fun _ _ _ _ h hp hv ht =>
  execBuild_of_hit hp (h.findTag_eq_some hv ht)

/-- Settles O25: the store after the run is the old one with the slot `FILL_PTR` names filled. -/
theorem buildMissFillsTheSlot : Obligations.BuildMissFillsTheSlot := by
  intro s o d hp hf hmiss
  have next := (execBuild_of_miss hp (State.findTag_none.2 hmiss)).trans (buildMiss_eq_next d o s hf)
  refine ⟨_, next, rfl, rfl, rfl, bumpCount_toNat _, ?_, ?_, ?_, ?_, List.length_modify .., rfl, rfl, rfl, rfl,
    rfl, rfl, rfl⟩
  · exact (State.slotValid_fillSlot ⟨d, o⟩ hf _).2 (.inl rfl)
  · exact State.slotTag_fillSlot_same ⟨d, o⟩ hf
  · exact State.tabRead_fillSlot_same ⟨d, o⟩ hf
  · exact fun j hj => List.getElem?_modify_ne _ _ hj.symm

/-- Settles O26: a hit makes the slot it found current, a miss the slot it filled. -/
theorem buildAlwaysSucceedsInIdle : Obligations.BuildAlwaysSucceedsInIdle := by
  intro s o d hp hf
  cases hk : s.findTag ⟨d, o⟩ with
  | some k => exact ⟨_, execBuild_of_hit hp hk, rfl, State.findTag_some hk⟩
  | none =>
    obtain ⟨t, ht, hr, hcur, -, -, hvalid, htag, -⟩ := buildMissFillsTheSlot s o d hp hf (State.findTag_none.1 hk)
    exact ⟨t, ht, hr, hcur ▸ hvalid, hcur ▸ htag⟩

/-- Settles O31. -/
theorem rdtabReturnsTheDivision : Obligations.RdtabReturnsTheDivision := by
  intro s i h ht
  rw [← h.tabRead_eq ht i]
  exact if_pos ht

/-- Settles O57: a refusal and a hit leave the store alone, and a miss changes the one slot `FILL_PTR` names. -/
theorem frameOfBuild : Obligations.FrameOfBuild := by
  intro o d s t h
  rcases execBuild_eq_next h with ⟨-, rfl⟩ | ⟨-, k, -, rfl⟩ | ⟨-, hmiss, -, rfl⟩
  · exact ⟨rfl, rfl, rfl, rfl, ⟨rfl, rfl, rfl⟩, fun k _ => ⟨rfl, rfl, fun _ => rfl⟩, fun _ => ⟨rfl, rfl, rfl, rfl⟩⟩
  · exact ⟨rfl, rfl, rfl, rfl, ⟨rfl, rfl, rfl⟩, fun k _ => ⟨rfl, rfl, fun _ => rfl⟩, fun _ => ⟨rfl, rfl, rfl, rfl⟩⟩
  · refine ⟨rfl, rfl, rfl, List.length_modify .., ⟨rfl, rfl, rfl⟩, fun k hk => ⟨?_, ?_, fun j => ?_⟩, ?_⟩
    · exact s.slotValid_modifySlot _ _ k hk.symm
    · exact s.slotTag_modifySlot _ _ k hk.symm
    · exact s.tabRead_modifySlot _ _ k j hk.symm
    · rintro ⟨k, hv, ht⟩
      exact absurd ht (State.findTag_none.1 hmiss k hv)

end Sys2Proof.Machine
end

section
/-! The law of `GEN_COUNT` (40_table_generator.md R113): along a run from reset, the count and the store against the set
of configs built so far. -/

namespace Sys2Proof.Machine

@[simp] theorem State.fillSlot_genCount (s : State) (c : PolyConfig) (k : Nat) :
    (s.fillSlot c k).genCount = s.genCount := rfl

/-! ### The configs of the successful `BUILD`s -/

theorem builtConfigs_cons (w : CmdWord) (ws : List CmdWord) (r : Response) (rs : List Response) :
    builtConfigs (w :: ws) (r :: rs) = builtConfigs [w] [r] ++ builtConfigs ws rs := by
  simp only [builtConfigs, List.zip_cons_cons, List.zip_nil_right, ← List.filterMap_append, List.singleton_append]

theorem builtConfigs_build {w : CmdWord} {o : Orientation} {d : Word} (hd : decode w = .instr (.build o d))
    (r : Response) : builtConfigs [w] [r] = if r.status = .ok then [⟨d, o⟩] else [] := by
  by_cases hr : r.status = .ok <;> simp [builtConfigs, hd, hr]

theorem builtConfigs_not_build {w : CmdWord} (hd : ∀ o d, decode w ≠ .instr (.build o d)) (r : Response) :
    builtConfigs [w] [r] = [] := by
  rw [builtConfigs, List.filterMap_eq_nil_iff]
  intro p hp
  obtain rfl := List.mem_singleton.1 hp
  split
  · next o d hbuild => exact absurd hbuild (hd o d)
  · rfl

/-! ### The store and the count against the configs built -/

/-- Every config built is in the store, `GEN_COUNT` is their number, and while a slot is left, `FILL_PTR` is that
number too and the valid slots are those below it (R31): so it is while the configs fit the slots. -/
structure State.HoldsExactly (s : State) (built : Finset PolyConfig) : Prop where
  count : s.genCount.toNat = built.card
  held : ∀ c ∈ built, ∃ k, s.slotValid k = true ∧ s.slotTag k = c
  room : built.card < s.slots.length → s.fillPtr = built.card ∧ ∀ k, s.slotValid k = true ↔ k < built.card

/-- What holds between commands of a run from reset of a core with `n` slots, after the configs `built`: no slot
is valid but by a `BUILD` of its tag, and each config was counted when it was first built, saturation apart. -/
structure State.AfterBuilds (n : Nat) (built : Finset PolyConfig) (s : State) : Prop where
  inv : s.Inv
  slots_length : s.slots.length = n
  tag_mem : ∀ k, s.slotValid k = true → s.slotTag k ∈ built
  counted : min built.card 0xFFFFFFFF ≤ s.genCount.toNat
  holds_exactly : built.card ≤ n → built.card < 2 ^ 32 → s.HoldsExactly built

theorem State.resetWith_afterBuilds {n : Nat} (hn : 1 ≤ n) : (State.resetWith n).AfterBuilds n ∅ where
  inv := State.resetWith_inv hn
  slots_length := State.resetWith_slots_length n
  tag_mem k hk := by simp at hk
  counted := by simp
  holds_exactly _ _ := ⟨rfl, by simp, fun _ => ⟨rfl, by simp⟩⟩

/-- Only the store, `FILL_PTR` and `GEN_COUNT` matter, beside the invariant. -/
theorem State.AfterBuilds.of_same {n : Nat} {built : Finset PolyConfig} {s t : State} (h : s.AfterBuilds n built)
    (ht : t.Inv) (hslots : t.slots = s.slots) (hfill : t.fillPtr = s.fillPtr) (hcount : t.genCount = s.genCount) :
    t.AfterBuilds n built := by
  obtain ⟨reg, gen, phase, ao, sl, cu, fp, gc, cp, rp, ho, ob⟩ := t
  obtain rfl : sl = s.slots := hslots
  obtain rfl : fp = s.fillPtr := hfill
  obtain rfl : gc = s.genCount := hcount
  obtain ⟨-, hlength, hmem, hcounted, hexact⟩ := h
  exact ⟨ht, hlength, hmem, hcounted, fun hn hlt => { hexact hn hlt with }⟩

/-- A miss while there is room for one more config: the new one is counted and stored in an invalid slot, and none is
lost. -/
theorem State.HoldsExactly.fillSlot_countRun {s : State} {built : Finset PolyConfig} {c : PolyConfig}
    (h : s.HoldsExactly built) (hc : c ∉ built) (hroom : built.card < s.slots.length) (hlt : built.card < 0xFFFFFFFF) :
    ((s.fillSlot c s.fillPtr).countRun s.fillPtr).HoldsExactly (insert c built) := by
  obtain ⟨hfill, hvalid⟩ := h.room hroom
  have hf : s.fillPtr < s.slots.length := hfill ▸ hroom
  have card : (insert c built).card = built.card + 1 := Finset.card_insert_of_notMem hc
  refine ⟨?_, ?_, fun hroom' => ?_⟩
  · rw [State.countRun_genCount, State.fillSlot_genCount, bumpCount_toNat, card, h.count]
    omega
  · simp only [State.countRun_slotValid, State.countRun_slotTag, State.slotValid_fillSlot c hf]
    intro c' hc'
    rcases Finset.mem_insert.1 hc' with rfl | old
    · exact ⟨s.fillPtr, .inl rfl, State.slotTag_fillSlot_same c' hf⟩
    · obtain ⟨k, hk, hkc⟩ := h.held c' old
      have hne : k ≠ s.fillPtr := by have := (hvalid k).1 hk; omega
      exact ⟨k, .inr hk, (State.slotTag_fillSlot_other s c hne).trans hkc⟩
  · rw [State.countRun_slots, State.fillSlot_slots, List.length_modify, card] at hroom'
    refine ⟨?_, fun k => ?_⟩
    · rw [State.countRun_fillPtr, State.fillSlot_slots, State.fillSlot_fillPtr, List.length_modify, hfill,
        Nat.mod_eq_of_lt hroom', card]
    · rw [State.countRun_slotValid, State.slotValid_fillSlot c hf, hvalid, hfill, card]
      omega

/-- A miss counts a config that the store does not hold; one that was built before and evicted is counted again. -/
theorem State.AfterBuilds.fillSlot_countRun {n : Nat} {built : Finset PolyConfig} {s : State} {c : PolyConfig}
    (h : s.AfterBuilds n built) (hc : s.findTag c = none) :
    ((s.fillSlot c s.fillPtr).countRun s.fillPtr).AfterBuilds n (insert c built) where
  inv := h.inv.fillSlot_countRun hc
  slots_length := by simpa using h.slots_length
  tag_mem k := by
    simp only [State.countRun_slotValid, State.countRun_slotTag, State.slotValid_fillSlot c h.inv.fillPtr_lt]
    rcases eq_or_ne k s.fillPtr with rfl | hne
    · rw [State.slotTag_fillSlot_same c h.inv.fillPtr_lt]
      exact fun _ => Finset.mem_insert_self c built
    · rw [State.slotTag_fillSlot_other s c hne]
      exact fun hk => Finset.mem_insert_of_mem (h.tag_mem k (hk.resolve_left hne))
  counted := by
    have old := h.counted
    have card := Finset.card_insert_le c built
    rw [State.countRun_genCount, State.fillSlot_genCount, bumpCount_toNat]
    omega
  holds_exactly hn hlt := by
    have holds := h.holds_exactly ((Finset.card_le_card (Finset.subset_insert c built)).trans hn)
      ((Finset.card_le_card (Finset.subset_insert c built)).trans_lt hlt)
    have fresh : c ∉ built := fun hmem => by
      obtain ⟨k, hk, hkc⟩ := holds.held c hmem
      exact State.findTag_none.1 hc k hk hkc
    rw [Finset.card_insert_of_notMem fresh] at hn hlt
    exact holds.fillSlot_countRun fresh (by rw [h.slots_length]; exact hn) (by omega)

/-- A `BUILD` that succeeds joins its config to those built; one that is refused changes nothing here. -/
theorem State.AfterBuilds.of_execBuild {n : Nat} {built : Finset PolyConfig} {s t : State} {o : Orientation} {d : Word}
    {r : Response} (h : s.AfterBuilds n built) (ht : execBuild o d s = .next t) (hr : t.rspPort = some r) :
    t.AfterBuilds n (if r.status = .ok then insert ⟨d, o⟩ built else built) := by
  have inv := h.inv.of_execBuild ht
  rcases execBuild_eq_next ht with ⟨-, rfl⟩ | ⟨-, k, hk, rfl⟩ | ⟨hp, hk, -, -⟩
  · cases hr
    exact h.of_same inv rfl rfl rfl
  · cases hr
    obtain ⟨hv, htag⟩ := State.findTag_some hk
    rw [if_pos rfl, Finset.insert_eq_self.2 (htag ▸ h.tag_mem k hv)]
    exact h.of_same inv rfl rfl rfl
  · rw [execBuild_of_miss hp hk, buildMiss_eq_fillSlot _ h.inv.fillPtr_lt h.inv.gen_none] at ht
    cases ht
    cases hr
    exact (h.fillSlot_countRun hk).of_same inv rfl rfl rfl

/-- What one word does to the configs built: as `builtConfigs` reads it off the word and its response. -/
theorem State.AfterBuilds.of_execWord {n : Nat} {built : Finset PolyConfig} {s t : State} {w : CmdWord} {r : Response}
    (h : s.AfterBuilds n built) (ht : execWord w s = .next t) (hr : t.rspPort = some r) :
    t.AfterBuilds n (built ∪ (builtConfigs [w] [r]).toFinset) := by
  have inv := h.inv.of_execWord ht
  cases hd : decode w with
  | reject why =>
    rw [execWord_of_reject hd] at ht
    cases ht
    rw [builtConfigs_not_build (by simp [hd]), List.toFinset_nil, Finset.union_empty]
    exact h.of_same inv rfl rfl rfl
  | instr i =>
    rw [execWord_of_instr hd] at ht
    rcases Instr.isBuild_or_not i with ⟨o, d, rfl⟩ | hi
    · have after := h.of_execBuild ht hr
      rw [builtConfigs_build hd]
      split at after
      · next hok => rw [if_pos hok]; simpa [Finset.union_comm] using after
      · next hok => rw [if_neg hok]; simpa using after
    · obtain ⟨hslots, -, hfill, hcount, -⟩ := exec_store hi ht
      rw [builtConfigs_not_build (by simpa [hd] using hi), List.toFinset_nil, Finset.union_empty]
      exact h.of_same inv hslots hfill hcount

theorem State.AfterBuilds.of_transact {n : Nat} {built : Finset PolyConfig} {s t : State} {w : CmdWord}
    (h : s.AfterBuilds n built) (ht : transact w s = some t) :
    ∃ r, t.observed = s.observed ++ [r] ∧ t.AfterBuilds n (built ∪ (builtConfigs [w] [r]).toFinset) := by
  obtain ⟨u, hu, rfl⟩ := transact_eq_some ht
  obtain ⟨u', r, hu', hr⟩ := h.inv.execWord_answer w
  cases hu.symm.trans hu'
  obtain ⟨-, -, hobs⟩ := execWord_sameHost hu
  have after := h.of_execWord hu hr
  rw [State.deliver_of_rspPort_some hr, ← hobs]
  exact ⟨r, rfl, after.of_same (after.inv.of_sameCore ⟨rfl, rfl, rfl, rfl, rfl, rfl, rfl, rfl⟩) rfl rfl rfl⟩

theorem State.AfterBuilds.of_runWords {n : Nat} {ws : List CmdWord} {built : Finset PolyConfig} {s t : State}
    (h : s.AfterBuilds n built) (ht : runWords ws s = some t) :
    ∃ rs, t.observed = s.observed ++ rs ∧ t.AfterBuilds n (built ∪ (builtConfigs ws rs).toFinset) := by
  induction ws generalizing s built with
  | nil =>
    cases ht
    exact ⟨[], (List.append_nil _).symm, by simpa [builtConfigs] using h⟩
  | cons w ws ih =>
    obtain ⟨u, hu, ht⟩ := Option.bind_eq_some_iff.1 ht
    obtain ⟨r, hr, first⟩ := h.of_transact hu
    obtain ⟨rs, hrs, rest⟩ := ih first ht
    refine ⟨r :: rs, by rw [hrs, hr, List.append_assoc]; rfl, ?_⟩
    rwa [builtConfigs_cons, List.toFinset_append, ← Finset.union_assoc]

/-- Settles O29: a run from reset keeps `State.AfterBuilds`, and a count below saturation is at least the number of
configs. -/
theorem genCountCountsDistinctConfigs : Obligations.GenCountCountsDistinctConfigs := by
  intro n ws t hn ht hlt
  obtain ⟨rs, hobs, h⟩ := (State.resetWith_afterBuilds hn).of_runWords ht
  obtain rfl : t.observed = rs := hobs
  rw [Finset.empty_union] at h
  have counted := h.counted
  simp only [← List.card_toFinset] at hlt ⊢
  exact ⟨fun hle => (h.holds_exactly hle hlt).count, by omega⟩

end Sys2Proof.Machine
end

section
/-! The Accumulator (41_accumulator.md): the byte update and the checksum it defines, the commands of a computation in the
phases where they are not refused, and a whole computation from `START` to `FINISH`. -/

namespace Sys2Proof.Machine

/-! ### The byte update and the checksum -/

/-- The byte update of R135. -/
theorem accFold_reflected (t : Byte → Word) (r : Word) (b : Byte) :
    accFold t .reflected r b = t (r.extractLsb' 0 8 ^^^ b) ^^^ (r >>> 8) := by
  rw [accFold, accIndex_reflected]; rfl

/-- The byte update of R136. -/
theorem accFold_normal (t : Byte → Word) (r : Word) (b : Byte) :
    accFold t .normal r b = (r <<< 8) ^^^ t (r.extractLsb' 24 8 ^^^ b) := by
  rw [accFold, accIndex_normal, accNext, BitVec.xor_comm]; rfl

theorem xor_crcXorOut (r : Word) : r ^^^ crcXorOut = ~~~ r := BitVec.xor_allOnes

theorem crc_nil (t : Byte → Word) (o : Orientation) : crc [] t o = 0#32 := BitVec.xor_self

/-- Where the index is 0 and the table holds 0 there (R105), the byte update only shifts. -/
theorem accFold_tableOf_index_zero (d : Word) (o a : Orientation) {r : Word} {b : Byte} (h : accIndex r b a = 0#8) :
    accFold (tableOf d o) a r b = shiftByte a r := by
  rw [accFold, h, accNext, tableOf, divideByte_zero, BitVec.zero_xor]

/-- The register's byte in the index stays `0xFF` while fewer than four of its bytes are shifted out, and a byte `0xFF`
cancels it. -/
theorem accIndex_shifted_ones (a : Orientation) {n : Nat} (hn : n < 4) :
    accIndex ((shiftByte a)^[n] crcInit) 0xFF#8 a = 0#8 := by
  revert n
  cases a <;> decide

theorem foldl_ones_bytes (d : Word) (o a : Orientation) {n : Nat} (hn : n ≤ 4) :
    (List.replicate n 0xFF#8).foldl (accFold (tableOf d o) a) crcInit = (shiftByte a)^[n] crcInit := by
  induction n with
  | zero => rfl
  | succ n ih =>
    rw [List.replicate_succ', List.foldl_concat, ih (by omega),
      accFold_tableOf_index_zero d o a (accIndex_shifted_ones a hn), Function.iterate_succ_apply']

/-! ### The commands of a computation, each in its phase -/

theorem exec_start_of_active {s : State} (o : Orientation) (hp : s.phase = .active) :
    exec (.start o) s = .next (s.respond .errSeq none) := by
  rw [exec, execStart, hp]; rfl

theorem exec_start_of_idle {s : State} (o : Orientation) (hp : s.phase = .idle) (hh : s.hasTable = true) :
    exec (.start o) s = .next ((s.openComputation crcInit o).respond .ok none) := by
  simp only [exec, execStart, hp, hh, if_true]; rfl

theorem exec_byte_of_active {s : State} (b : Byte) (hp : s.phase = .active) :
    exec (.byte b) s =
      .next ((s.writeReg (accFold s.currentTable s.accOrient s.regValue b)).respond .ok none) := by
  rw [exec, execByte, hp]; rfl

theorem exec_finish_of_active {s : State} (hp : s.phase = .active) :
    exec .finish s = .next (s.endComputation.respond .ok (some (s.regValue ^^^ crcXorOut))) := by
  rw [exec, execFinish, hp]; rfl

theorem State.regValue_of_some {s : State} {r : Word} (h : s.reg = some r) : s.regValue = r := by
  rw [State.regValue, h]; rfl

/-- Of the commands that are no `BUILD` only `START` writes `ACC_ORIENT` (R25). -/
theorem exec_accOrient {i : Instr} {s t : State} (hi : ∀ o d, i ≠ .build o d) (hs : ∀ o, i ≠ .start o)
    (h : exec i s = .next t) : t.accOrient = s.accOrient := by
  rcases exec_eq_next hi h with ⟨st, -, rfl⟩ | ⟨v, -, -, rfl⟩ | ⟨o, rfl, -⟩ | ⟨b, -, -, rfl⟩ | ⟨-, -, rfl⟩ |
    ⟨k, -, -, rfl⟩
  · rfl
  · rfl
  · exact absurd rfl (hs o)
  · rfl
  · rfl
  · rfl

/-- `BYTE` does not change the phase (R26). -/
theorem exec_byte_phase {b : Byte} {s t : State} (h : exec (.byte b) s = .next t) : t.phase = s.phase := by
  by_contra hne
  rcases exec_phase_change h hne with ⟨-, -, -, o, ho⟩ | ⟨-, -, hf | ⟨k, hk⟩⟩
  · cases ho
  · cases hf
  · cases hk

theorem State.tabRead_congr {s t : State} (h : t.slots = s.slots) (k : Nat) (i : Byte) :
    t.tabRead k i = s.tabRead k i := by
  rw [State.tabRead, State.tabRead, h]

/-! ### Sequences of words -/

theorem runWords_append (ws ws' : List CmdWord) (s : State) :
    runWords (ws ++ ws') s = (runWords ws s).bind (runWords ws') := by
  induction ws generalizing s with
  | nil => rfl
  | cons w ws ih => simp only [List.cons_append, runWords, Option.bind_assoc, ih]

theorem runWords_singleton (w : CmdWord) (s : State) : runWords [w] s = transact w s :=
  Option.bind_fun_some _

/-- A transaction is the execution of its word and the delivery of the response it is answered with. -/
theorem transact_of_respond {w : CmdWord} {s u : State} {st : Status} {v : Option Word}
    (h : execWord w s = .next (u.respond st v)) :
    transact w s = some { u with rspPort := none, observed := u.observed ++ [⟨st, v⟩] } := by
  rw [transact, h]; rfl

theorem execWord_encode {i : Instr} (h : i.wellFormed = true) (s : State) : execWord (encode i) s = exec i s :=
  execWord_of_instr (decode_encode i h) s

theorem deliveredBytes_cons (w : CmdWord) (ws : List CmdWord) :
    deliveredBytes (w :: ws) = deliveredBytes [w] ++ deliveredBytes ws := by
  simp only [deliveredBytes, ← List.filterMap_append, List.singleton_append]

theorem deliveredBytes_byte {w : CmdWord} {b : Byte} (hd : decode w = .instr (.byte b)) : deliveredBytes [w] = [b] := by
  simp [deliveredBytes, hd]

theorem deliveredBytes_not_byte {w : CmdWord} (hd : ∀ b, decode w ≠ .instr (.byte b)) : deliveredBytes [w] = [] := by
  rw [deliveredBytes, List.filterMap_eq_nil_iff]
  intro v hv
  obtain rfl := List.mem_singleton.1 hv
  split
  · next b hb => exact absurd hb (hd b)
  · rfl

/-! ### A computation in progress -/

/-- In `ACTIVE` a word that is no `BYTE` and does not end the computation only draws an answer: it is a read, or it is
refused (R132, R205). -/
theorem execWord_of_active_only_answers {w : CmdWord} {s : State} (hp : s.phase = .active)
    (hw : endsComputation w = false) (hb : ∀ b, decode w ≠ .instr (.byte b)) :
    ∃ st v, execWord w s = .next (s.respond st v) := by
  cases hd : decode w with
  | reject why => exact ⟨_, _, execWord_of_reject hd s⟩
  | instr i =>
    rw [execWord_of_instr hd]
    rcases Instr.isBuild_or_not i with ⟨o, d, rfl⟩ | hi
    · exact ⟨_, _, execBuild_of_active o d hp⟩
    · obtain ⟨t, -, ht, -⟩ := exec_answer hi s
      rw [ht]
      rcases exec_eq_next hi ht with ⟨st, -, rfl⟩ | ⟨v, -, -, rfl⟩ | ⟨o, -, hidle, -⟩ | ⟨b, rfl, -⟩ | ⟨rfl, -⟩ |
        ⟨k, rfl, -⟩
      · exact ⟨_, _, rfl⟩
      · exact ⟨_, _, rfl⟩
      · cases hp.symm.trans hidle
      · exact absurd hd (hb b)
      · simp [endsComputation, hd] at hw
      · simp [endsComputation, hd] at hw

/-- In `t` a computation is in progress that was opened in `s` in orientation `o`, and these bytes were delivered to it:
`REG` is their fold over the table current in `s`, and the store is that of `s`. -/
structure State.Computing (s : State) (o : Orientation) (bytes : List Byte) (t : State) : Prop where
  phase : t.phase = .active
  accOrient : t.accOrient = o
  reg : t.reg = some (bytes.foldl (accFold s.currentTable o) crcInit)
  store : SameStore s t

theorem State.currentTable_of_sameStore {s t : State} (h : SameStore s t) : t.currentTable = s.currentTable := by
  obtain ⟨hslots, hcur, -⟩ := h
  funext i
  rw [State.currentTable, hcur]
  exact State.tabRead_congr hslots s.cur i

/-- `START` opens a computation with no byte delivered (R131). -/
theorem transact_start {s : State} (o : Orientation) (hp : s.phase = .idle) (hh : s.hasTable = true) :
    ∃ t, transact (encode (.start o)) s = some t ∧ t.observed = s.observed ++ [⟨.ok, none⟩] ∧ s.Computing o [] t :=
  ⟨_, transact_of_respond ((execWord_encode rfl s).trans (exec_start_of_idle o hp hh)), rfl, rfl, rfl, rfl,
    rfl, rfl, rfl, rfl⟩

/-- A word that does not end the computation delivers its byte, if it has one, and changes nothing else of the
computation (R133). -/
theorem State.Computing.after_transact {s t : State} {o : Orientation} {bytes : List Byte} {w : CmdWord}
    (h : s.Computing o bytes t) (hw : endsComputation w = false) :
    ∃ u r, transact w t = some u ∧ u.observed = t.observed ++ [r] ∧ s.Computing o (bytes ++ deliveredBytes [w]) u := by
  obtain ⟨hp, ho, hreg, hstore⟩ := h
  by_cases hb : ∃ b, decode w = .instr (.byte b)
  · obtain ⟨b, hb⟩ := hb
    have next := (execWord_of_instr hb t).trans (exec_byte_of_active b hp)
    refine ⟨_, _, transact_of_respond next, rfl, hp, ho, congrArg some ?_, hstore⟩
    rw [deliveredBytes_byte hb, List.foldl_concat, State.currentTable_of_sameStore hstore, ho,
      State.regValue_of_some hreg]
  · have notByte : ∀ b, decode w ≠ .instr (.byte b) := not_exists.1 hb
    obtain ⟨st, v, next⟩ := execWord_of_active_only_answers hp hw notByte
    rw [deliveredBytes_not_byte notByte, List.append_nil]
    exact ⟨_, _, transact_of_respond next, rfl, hp, ho, hreg, hstore⟩

theorem State.Computing.after_runWords {s t : State} {o : Orientation} {bytes : List Byte} {ws : List CmdWord}
    (h : s.Computing o bytes t) (hws : ∀ w ∈ ws, endsComputation w = false) :
    ∃ u rs, runWords ws t = some u ∧ u.observed = t.observed ++ rs ∧ rs.length = ws.length ∧
      s.Computing o (bytes ++ deliveredBytes ws) u := by
  induction ws generalizing t bytes with
  | nil => exact ⟨t, [], rfl, (List.append_nil _).symm, rfl, by simpa [deliveredBytes] using h⟩
  | cons w ws ih =>
    obtain ⟨hw, hws⟩ := List.forall_mem_cons.1 hws
    obtain ⟨t', r, ht', hr, first⟩ := h.after_transact hw
    obtain ⟨u, rs, hu, hrs, hlength, rest⟩ := ih first hws
    refine ⟨u, r :: rs, ?_, by rw [hrs, hr, List.append_assoc]; rfl, congrArg Nat.succ hlength, ?_⟩
    · rw [runWords, ht', Option.bind_some, hu]
    · rwa [deliveredBytes_cons, ← List.append_assoc]

/-- `FINISH` returns the checksum of the bytes delivered and ends the computation (R140, R141). -/
theorem State.Computing.after_finish {s t : State} {o : Orientation} {bytes : List Byte}
    (h : s.Computing o bytes t) :
    ∃ u, transact (encode .finish) t = some u ∧
      u.observed = t.observed ++ [⟨.ok, some (crc bytes s.currentTable o)⟩] ∧
      u.phase = .idle ∧ u.reg = none ∧ SameStore s u := by
  have next := (execWord_encode rfl t).trans (exec_finish_of_active h.phase)
  rw [State.regValue_of_some h.reg] at next
  exact ⟨_, transact_of_respond next, rfl, rfl, rfl, h.store⟩

/-! ### The obligations -/

/-- Settles O40: `START` opens the computation, the words between keep `State.Computing`, and `FINISH` returns the fold
complemented. -/
theorem computationReturnsTheChecksum : Obligations.ComputationReturnsTheChecksum := by
  intro s o ws hp hh hws
  obtain ⟨t₀, ht₀, hobs₀, opened⟩ := transact_start o hp hh
  obtain ⟨t₁, rs, ht₁, hobs₁, hlength, computing⟩ := opened.after_runWords hws
  obtain ⟨t, ht, hobs, hidle, hreg, hstore⟩ := computing.after_finish
  refine ⟨t, ⟨.ok, none⟩ :: rs, ?_, ?_, congrArg Nat.succ hlength, hidle, hreg, hstore⟩
  · rw [runWords, ht₀, Option.bind_some, runWords_append, ht₁, Option.bind_some, runWords_singleton, ht]
  · rw [hobs, hobs₁, hobs₀, List.append_assoc s.observed]; rfl

/-- Settles O41: by O40 each run ends with a checksum over the current table, and equal tags mean equal tables (R29). -/
theorem checksumDependsOnTagOrientationAndBytes : Obligations.ChecksumDependsOnTagOrientationAndBytes := by
  intro s s' t t' o ws ws' h h' hp hp' hh hh' htag hws hws' hbytes ht ht'
  obtain ⟨u, rs, hu, hobs, -⟩ := computationReturnsTheChecksum s o ws hp hh hws
  obtain ⟨u', rs', hu', hobs', -⟩ := computationReturnsTheChecksum s' o ws' hp' hh' hws'
  cases hu.symm.trans ht
  cases hu'.symm.trans ht'
  have table : s.currentTable = s'.currentTable := by
    funext i
    rw [State.currentTable, State.currentTable, h.tabRead_eq hh, h'.tabRead_eq hh', htag]
  rw [hobs, hobs', hbytes, table, List.getLast?_concat, List.getLast?_concat]
  exact ⟨rfl, rfl⟩

/-- Settles O35. -/
theorem byteFoldsReflected : Obligations.ByteFoldsReflected := by
  intro s b r hp hr ho
  have next := exec_byte_of_active b hp
  rw [ho, State.regValue_of_some hr, accFold_reflected] at next
  exact next

/-- Settles O36. -/
theorem byteFoldsNormal : Obligations.ByteFoldsNormal := by
  intro s b r hp hr ho
  have next := exec_byte_of_active b hp
  rw [ho, State.regValue_of_some hr, accFold_normal] at next
  exact next

/-- Settles O43: each byte finds entry 0, so four bytes shift the register to 0. -/
theorem fourOnesBytesGiveAllOnes : Obligations.FourOnesBytesGiveAllOnes := by
  intro d o a
  have shifted := foldl_ones_bytes d o a (le_refl 4)
  have out : (shiftByte a)^[4] crcInit = 0#32 := by cases a <;> decide
  exact congrArg (· ^^^ crcXorOut) (shifted.trans out)

/-- Settles O56: none of the four commands is a `BUILD`, which alone writes the store. -/
theorem frameOfAccumulatorCommands : Obligations.FrameOfAccumulatorCommands := by
  intro i s t hi h
  have notBuild : ∀ o d, i ≠ .build o d := by
    rintro o d rfl
    exact hi
  obtain ⟨hslots, hcur, hfill, hcount, hgen, hcmd, hhost, hobs⟩ := exec_store notBuild h
  refine ⟨⟨hslots, hcur, hfill, hcount⟩, ⟨hcmd, hhost, hobs⟩, hgen, State.tabRead_congr hslots, ?_, fun hend => ?_⟩
  · rintro ⟨b, rfl⟩
    exact ⟨exec_byte_phase h, exec_accOrient notBuild nofun h⟩
  · refine exec_accOrient notBuild (fun o ho => ?_) h
    rcases hend with rfl | ⟨k, rfl⟩ <;> cases ho

/-- Settles O33. -/
theorem startOpensAComputation : Obligations.StartOpensAComputation := fun _ o hp hh => exec_start_of_idle o hp hh

/-- Settles O34. -/
theorem startRefusedDuringComputation : Obligations.StartRefusedDuringComputation := fun _ o hp =>
  exec_start_of_active o hp

/-- Settles O37. -/
theorem byteCompletesInActive : Obligations.ByteCompletesInActive := fun _ b hp => ⟨_, exec_byte_of_active b hp⟩

/-- Settles O38. -/
theorem finishReturnsTheComplement : Obligations.FinishReturnsTheComplement := by
  intro s r hp hr
  rw [exec_finish_of_active hp, State.regValue_of_some hr, xor_crcXorOut]
  rfl

/-- Settles O42: the checksum of no bytes. -/
theorem emptyInputGivesZero : Obligations.EmptyInputGivesZero := by
  intro s o hp hh
  obtain ⟨t₀, ht₀, hobs₀, opened⟩ := transact_start o hp hh
  obtain ⟨t, ht, hobs, -⟩ := opened.after_finish
  refine ⟨t, ?_, ?_⟩
  · rw [runWords, ht₀, Option.bind_some, runWords_singleton, ht]
  · rw [hobs, hobs₀, crc_nil, List.append_assoc]; rfl

/-- Settles O44: the two checksums evaluated. -/
theorem knownChecksums : Obligations.KnownChecksums := by
  unfold Obligations.KnownChecksums
  decide +kernel

end Sys2Proof.Machine
end

section
/-! The two orientations over a whole checksum (42_orientation_dispatcher.md R164): bit reversal takes each part of the
Reflected byte update to the same part of the Normal one, so it takes the folds over all bytes to one another. -/

namespace Sys2Proof.Machine

/-- The byte shift is eight of the Table Generator's bit shifts (R162, R163). -/
theorem shiftByte_eq_iterate (o : Orientation) (r : Word) : shiftByte o r = (shiftOne o)^[8] r := by
  cases o with
  | reflected => exact (shiftOne_reflected_iterate 8 r).symm
  | normal => exact (shiftOne_normal_iterate 8 r).symm

theorem shiftByte_reverse (r : Word) : (shiftByte .reflected r).reverse = shiftByte .normal r.reverse := by
  rw [shiftByte_eq_iterate, shiftByte_eq_iterate]
  exact (show Function.Semiconj BitVec.reverse _ _ from shiftOne_reverse).iterate_right 8 r

/-- The lowest byte reversed is the highest byte of the reversed register. -/
theorem extractLsb'_zero_reverse (r : Word) : (r.extractLsb' 0 8).reverse = r.reverse.extractLsb' 24 8 := by
  apply BitVec.eq_of_getLsbD_eq
  intro i hi
  rw [getLsbD_reverse_of_lt _ hi, BitVec.getLsbD_extractLsb', BitVec.getLsbD_extractLsb',
    getLsbD_reverse_of_lt r (by omega), show 32 - 1 - (24 + i) = 0 + (8 - 1 - i) by omega]
  simp only [hi, show 8 - 1 - i < 8 by omega]

theorem accIndex_reverse (r : Word) (b : Byte) :
    (accIndex r b .reflected).reverse = accIndex r.reverse b.reverse .normal := by
  rw [accIndex_reflected, accIndex_normal, reverse_xor, extractLsb'_zero_reverse]

theorem accFold_reverse (d r : Word) (b : Byte) :
    (accFold (tableOf d .reflected) .reflected r b).reverse =
      accFold (tableOf d.reverse .normal) .normal r.reverse b.reverse := by
  simp only [accFold, accNext, tableOf, reverse_xor, divideByte_reverse, accIndex_reverse, shiftByte_reverse]

theorem reverse_allOnes (w : Nat) : (BitVec.allOnes w).reverse = BitVec.allOnes w := by
  apply BitVec.eq_of_getLsbD_eq
  intro i hi
  rw [getLsbD_reverse_of_lt _ hi, BitVec.getLsbD_allOnes, BitVec.getLsbD_allOnes]
  simp only [hi, show w - 1 - i < w by omega]

/-- `INIT` and `XOROUT` (R6), being all ones, are their own reversals, so the whole checksum reverses. -/
theorem crc_reverse (bytes : List Byte) (d : Word) :
    (crc bytes (tableOf d .reflected) .reflected).reverse =
      crc (bytes.map BitVec.reverse) (tableOf d.reverse .normal) .normal := by
  have init : crcInit.reverse = crcInit := reverse_allOnes 32
  have xorOut : crcXorOut.reverse = crcXorOut := reverse_allOnes 32
  have fold : (bytes.foldl (accFold (tableOf d .reflected) .reflected) crcInit).reverse =
      (bytes.map BitVec.reverse).foldl (accFold (tableOf d.reverse .normal) .normal) crcInit.reverse := by
    rw [List.foldl_map]
    exact (List.foldl_hom BitVec.reverse fun r b => (accFold_reverse d r b).symm).symm
  rw [crc, crc, reverse_xor, xorOut, fold, init]

/-- Settles O23. -/
theorem reflectedChecksumIsReversedNormal : Obligations.ReflectedChecksumIsReversedNormal := fun bytes d => by
  rw [← crc_reverse, BitVec.reverse_reverse_eq]

end Sys2Proof.Machine
end

section
/-! The Byte Source's failure and the reserved opcodes (43_system_commands.md R181, R185). -/

namespace Sys2Proof.Machine

/-! ### The decoder at a reserved opcode -/

theorem decode_of_opField_zero {w : CmdWord} (h : opField w = 0x0#4) : decode w = .instr (.reservedOp0 (restField w)) := by
  rw [decode, if_pos h]

theorem decode_of_eight_le_opField {w : CmdWord} (h : 8 ≤ (opField w).toNat) :
    decode w = .instr (.reservedOp8F (opField w) (restField w)) := by
  have hne : opField w ≠ 0x0#4 := by
    intro h0
    rw [h0] at h
    exact absurd h (by decide)
  rw [decode, if_neg hne, if_pos h]

/-! ### The commands, each in the phase where the spec gives its effect -/

theorem exec_reservedOp0 (rest : BitVec 36) (s : State) :
    exec (.reservedOp0 rest) s = .next (s.respond .errIllegal none) := rfl

theorem exec_reservedOp8F (op : BitVec 4) (rest : BitVec 36) (s : State) :
    exec (.reservedOp8F op rest) s = .next (s.respond .errIllegal none) := rfl

theorem exec_fail_of_active {s : State} (k : FailKind) (hp : s.phase = .active) :
    exec (.fail k) s = .next (s.endComputation.respond (failStatus k) none) := by
  rw [exec, execFail, hp]

theorem exec_finish_of_idle {s : State} (hp : s.phase = .idle) :
    exec .finish s = .next (s.respond .errSeq none) := by
  rw [exec, execFinish, hp]; rfl

/-! ### The obligations -/

/-- Settles O48: each class of reserved opcode decodes to its own instruction, and both are refused. -/
theorem reservedOpcodesAreIllegal : Obligations.ReservedOpcodesAreIllegal := by
  refine ⟨fun w s h => ?_, by decide⟩
  rcases h with h0 | h8
  · exact (execWord_of_instr (decode_of_opField_zero h0) s).trans (exec_reservedOp0 _ s)
  · exact (execWord_of_instr (decode_of_eight_le_opField h8) s).trans (exec_reservedOp8F _ _ s)

/-- Settles O45: `FAIL` leaves the phase `IDLE`, where `FINISH` is refused. -/
theorem failEndsWithoutAChecksum : Obligations.FailEndsWithoutAChecksum := by
  intro s k hp
  refine ⟨_, exec_fail_of_active k hp, ?_, exec_finish_of_idle rfl⟩
  cases k <;> rfl

/-- Settles O49. -/
theorem reservedInstructionsComplete : Obligations.ReservedInstructionsComplete := fun s op rest =>
  ⟨exec_reservedOp0 rest s, exec_reservedOp8F op rest s⟩

end Sys2Proof.Machine
end

section
/-! Errors (60_exceptions.md): which words are answered with which status in which phase (R203 to R206), what an error
leaves behind (R208, R211), and that the core does not act unasked (R209). -/

namespace Sys2Proof.Machine

/-! ### Malformed words -/

/-- Of the malformed words only those of a reserved opcode decode to an instruction: a word that selects another row
meets none of R82's clauses. -/
theorem reserved_of_malformed_of_decode {w : CmdWord} {i : Instr} (hw : Malformed w) (hd : decode w = .instr i) :
    (∃ rest, i = .reservedOp0 rest) ∨ ∃ op rest, i = .reservedOp8F op rest := by
  have sel := row_selects_of_decode hd
  cases i with
  | build o d =>
    obtain ⟨hop, hrsv⟩ := (selects_build o d w).1 sel
    simp [Malformed, hop, hrsv] at hw
  | rdtab idx =>
    obtain ⟨hop, hrsv, ho, hdata⟩ := (selects_rdtab idx w).1 sel
    simp [Malformed, hop, hrsv, ho, Nat.not_le.2 ((and_highMask24_iff_lt _).1 hdata)] at hw
  | start o =>
    obtain ⟨hop, hrsv, hdata⟩ := (selects_start o w).1 sel
    simp [Malformed, hop, hrsv, hdata] at hw
  | byte b =>
    obtain ⟨hop, hrsv, ho, hdata⟩ := (selects_byte b w).1 sel
    simp [Malformed, hop, hrsv, ho, Nat.not_le.2 ((and_highMask24_iff_lt _).1 hdata)] at hw
  | finish =>
    obtain ⟨hop, hrsv, ho, hdata⟩ := (selects_finish w).1 sel
    simp [Malformed, hop, hrsv, ho, hdata] at hw
  | fail k =>
    obtain ⟨hop, hrsv, ho, hdata⟩ := (selects_fail k w).1 sel
    simp [Malformed, hop, hrsv, ho, Nat.not_le.2 ((and_highMask31_iff_lt _).1 hdata)] at hw
  | rdsrStatus =>
    obtain ⟨hop, hrsv, ho, hdata⟩ := (selects_rdsrStatus w).1 sel
    simp [Malformed, hop, hrsv, ho, hdata] at hw
  | rdsrDivisor =>
    obtain ⟨hop, hrsv, ho, hdata⟩ := (selects_rdsrDivisor w).1 sel
    simp [Malformed, hop, hrsv, ho, hdata] at hw
  | rdsrGencount =>
    obtain ⟨hop, hrsv, ho, hdata⟩ := (selects_rdsrGencount w).1 sel
    simp [Malformed, hop, hrsv, ho, hdata] at hw
  | reservedOp0 rest => exact .inl ⟨rest, rfl⟩
  | reservedOp8F op rest => exact .inr ⟨op, rest, rfl⟩

/-! ### The commands that need a computation, in `IDLE` -/

theorem exec_byte_of_idle {s : State} (b : Byte) (hp : s.phase = .idle) :
    exec (.byte b) s = .next (s.respond .errSeq none) := by
  rw [exec, execByte, hp]; rfl

theorem exec_fail_of_idle {s : State} (k : FailKind) (hp : s.phase = .idle) :
    exec (.fail k) s = .next (s.respond .errSeq none) := by
  rw [exec, execFail, hp]; rfl

/-! ### The commands that need the current table -/

theorem exec_rdtab_of_table {s : State} (idx : Byte) (hh : s.hasTable = true) :
    exec (.rdtab idx) s = .next (s.respond .ok (some (s.tabRead s.cur idx))) := if_pos hh

theorem exec_rdtab_of_no_table {s : State} (idx : Byte) (hh : s.hasTable = false) :
    exec (.rdtab idx) s = .next (s.respond .errNoTable none) := if_neg (Bool.eq_false_iff.1 hh)

theorem exec_rdsrDivisor_of_table {s : State} (hh : s.hasTable = true) :
    exec .rdsrDivisor s = .next (s.respond .ok (some (s.slotTag s.cur).divisor)) := if_pos hh

theorem exec_rdsrDivisor_of_no_table {s : State} (hh : s.hasTable = false) :
    exec .rdsrDivisor s = .next (s.respond .errNoTable none) := if_neg (Bool.eq_false_iff.1 hh)

theorem exec_start_of_no_table {s : State} (o : Orientation) (hp : s.phase = .idle) (hh : s.hasTable = false) :
    exec (.start o) s = .next (s.respond .errNoTable none) := by
  rw [exec, execStart, hp]
  exact if_neg (Bool.eq_false_iff.1 hh)

/-! ### What an execution that ends in an error leaves behind -/

/-- An execution refuses the word and only answers, succeeds, or ends the computation with a Byte Source failure. -/
theorem execWord_refuses_or_succeeds_or_fails {w : CmdWord} {s t : State} (h : execWord w s = .next t) :
    (∃ st, (st = .errSeq ∨ st = .errNoTable ∨ st = .errIllegal) ∧ t = s.respond st none) ∨
    (∃ v, t.rspPort = some ⟨.ok, v⟩) ∨
    ∃ k, t = s.endComputation.respond (failStatus k) none := by
  cases hd : decode w with
  | reject why =>
    rw [execWord_of_reject hd] at h
    cases h
    exact .inl ⟨.errIllegal, .inr (.inr rfl), rfl⟩
  | instr i =>
    rw [execWord_of_instr hd] at h
    rcases Instr.isBuild_or_not i with ⟨o, d, rfl⟩ | hi
    · rcases execBuild_eq_next h with ⟨-, rfl⟩ | ⟨-, k, -, rfl⟩ | ⟨-, -, -, rfl⟩
      · exact .inl ⟨.errSeq, .inl rfl, rfl⟩
      · exact .inr (.inl ⟨none, rfl⟩)
      · exact .inr (.inl ⟨none, rfl⟩)
    · rcases exec_eq_next hi h with refusal | ⟨v, -, -, rfl⟩ | ⟨o, -, -, -, rfl⟩ | ⟨b, -, -, rfl⟩ | ⟨-, -, rfl⟩ |
        ⟨k, -, -, rfl⟩
      · exact .inl refusal
      · exact .inr (.inl ⟨some v, rfl⟩)
      · exact .inr (.inl ⟨none, rfl⟩)
      · exact .inr (.inl ⟨none, rfl⟩)
      · exact .inr (.inl ⟨_, rfl⟩)
      · exact .inr (.inr ⟨k, rfl⟩)

/-! ### The host's acts -/

theorem hostStep_sameCore {s t : State} (hreset : s.host.head? ≠ some .reset) (h : hostStep s = .next t) :
    SameCore s t := by
  rcases hostStep_sameCore_or_reset h with same | ⟨rest, hh, -⟩
  · exact same
  · exact absurd (congrArg List.head? hh) hreset

/-- With no response pending no act of the host makes one appear, and there is none to deliver; the reset event
puts none on the port either (R75, R231). -/
theorem hostStep_no_response {s t : State} (hr : s.rspPort = none) (h : hostStep s = .next t) :
    t.rspPort = none ∧ t.observed = s.observed := by
  rcases hostStep_eq_next h with ⟨-, rfl⟩ | ⟨w, rest, -, -, rfl⟩ | ⟨rest, -, rfl⟩ | ⟨rest, -, rfl⟩
  · exact ⟨hr, rfl⟩
  · exact ⟨hr, rfl⟩
  · rw [State.deliver_eq, hr]
    exact ⟨rfl, List.append_nil _⟩
  · exact ⟨rfl, rfl⟩

/-! ### The obligations -/

/-- Settles O5: the word selects no row, or its opcode is reserved. -/
theorem malformedWordIsAnsweredIllegal : Obligations.MalformedWordIsAnsweredIllegal := by
  intro w s hw
  cases hd : decode w with
  | reject why => exact execWord_of_reject hd s
  | instr i =>
    rw [execWord_of_instr hd]
    rcases reserved_of_malformed_of_decode hw hd with ⟨rest, rfl⟩ | ⟨op, rest, rfl⟩
    · exact exec_reservedOp0 rest s
    · exact exec_reservedOp8F op rest s

/-- Settles O11: the step is the host's next act, and none of its acts but a reset changes the core. -/
theorem coreDoesNotActUnasked : Obligations.CoreDoesNotActUnasked := by
  constructor
  · intro s t ha hreset h
    rw [step_of_acceptable_none ha] at h
    exact ⟨hostStep_sameCore hreset h, fun hr => hostStep_no_response hr h⟩
  · intro s ha hh
    rw [step_of_acceptable_none ha, hostStep, hh]

/-- Settles O50: by phase, with the current table there in every computation (`State.Inv.active_table`), and with a slot
for `BUILD` to fill. -/
theorem acceptanceByPhase : Obligations.AcceptanceByPhase := by
  intro s i h
  cases hp : s.phase with
  | idle =>
    cases i with
    | build o d =>
      obtain ⟨t, ht, hr, -⟩ := buildAlwaysSucceedsInIdle s o d hp h.fillPtr_lt
      exact ⟨t, _, ht, hr, rfl⟩
    | rdtab idx =>
      cases hh : s.hasTable with
      | true => exact ⟨_, _, exec_rdtab_of_table idx hh, rfl, rfl⟩
      | false => exact ⟨_, _, exec_rdtab_of_no_table idx hh, rfl, rfl⟩
    | start o =>
      cases hh : s.hasTable with
      | true => exact ⟨_, _, exec_start_of_idle o hp hh, rfl, rfl⟩
      | false => exact ⟨_, _, exec_start_of_no_table o hp hh, rfl, rfl⟩
    | byte b => exact ⟨_, _, exec_byte_of_idle b hp, rfl, rfl⟩
    | finish => exact ⟨_, _, exec_finish_of_idle hp, rfl, rfl⟩
    | fail k => exact ⟨_, _, exec_fail_of_idle k hp, rfl, rfl⟩
    | rdsrStatus => exact ⟨_, _, rfl, rfl, rfl⟩
    | rdsrDivisor =>
      cases hh : s.hasTable with
      | true => exact ⟨_, _, exec_rdsrDivisor_of_table hh, rfl, rfl⟩
      | false => exact ⟨_, _, exec_rdsrDivisor_of_no_table hh, rfl, rfl⟩
    | rdsrGencount => exact ⟨_, _, rfl, rfl, rfl⟩
    | reservedOp0 rest => exact ⟨_, _, exec_reservedOp0 rest s, rfl, rfl⟩
    | reservedOp8F op rest => exact ⟨_, _, exec_reservedOp8F op rest s, rfl, rfl⟩
  | active =>
    have hh := h.active_table hp
    cases i with
    | build o d => exact ⟨_, _, execBuild_of_active o d hp, rfl, rfl⟩
    | rdtab idx => exact ⟨_, _, exec_rdtab_of_table idx hh, rfl, rfl⟩
    | start o => exact ⟨_, _, exec_start_of_active o hp, rfl, rfl⟩
    | byte b => exact ⟨_, _, exec_byte_of_active b hp, rfl, rfl⟩
    | finish => exact ⟨_, _, exec_finish_of_active hp, rfl, rfl⟩
    | fail k => cases k <;> exact ⟨_, _, exec_fail_of_active _ hp, rfl, rfl⟩
    | rdsrStatus => exact ⟨_, _, rfl, rfl, rfl⟩
    | rdsrDivisor => exact ⟨_, _, exec_rdsrDivisor_of_table hh, rfl, rfl⟩
    | rdsrGencount => exact ⟨_, _, rfl, rfl, rfl⟩
    | reservedOp0 rest => exact ⟨_, _, exec_reservedOp0 rest s, rfl, rfl⟩
    | reservedOp8F op rest => exact ⟨_, _, exec_reservedOp8F op rest s, rfl, rfl⟩

/-- Settles O51: the status of the answer tells a refusal, a success and a Byte Source failure apart. -/
theorem errorsChangeNothingElse : Obligations.ErrorsChangeNothingElse := by
  intro w s t r h hr
  rcases execWord_refuses_or_succeeds_or_fails h with ⟨st, hst, rfl⟩ | ⟨v, hv⟩ | ⟨k, rfl⟩
  · cases hr
    refine ⟨fun _ => rfl, fun hfailure => ?_⟩
    rcases hst with rfl | rfl | rfl <;> simp at hfailure
  · cases hv.symm.trans hr
    exact ⟨fun hrefusal => by simp at hrefusal, fun hfailure => by simp at hfailure⟩
  · cases hr
    refine ⟨fun hrefusal => ?_, fun _ => rfl⟩
    cases k <;> simp [failStatus] at hrefusal

/-- Settles O32. -/
theorem noTableIsReported : Obligations.NoTableIsReported := fun _ hh =>
  ⟨fun idx => exec_rdtab_of_no_table idx hh, exec_rdsrDivisor_of_no_table hh,
    fun hp o => exec_start_of_no_table o hp hh⟩

/-- Settles O39. -/
theorem noComputationIsReported : Obligations.NoComputationIsReported := fun _ hp =>
  ⟨fun b => exec_byte_of_idle b hp, exec_finish_of_idle hp, fun k => exec_fail_of_idle k hp⟩

end Sys2Proof.Machine
end

section
/-! The reset event as a step of the machine (70_reset_and_hazards.md R231). -/

namespace Sys2Proof.Machine

theorem hostStep_reset {s : State} {rest : List HostAct} (hh : s.host = .reset :: rest) :
    hostStep s = .next (State.resetEvent { s with host := rest }) := by
  rw [hostStep, hh]

/-- Settles O12: the step is the host's reset, and the core's part of what it leaves is `State.resetWith` of the slots
there are. -/
theorem resetEventTakesTheResetState : Obligations.ResetEventTakesTheResetState := by
  intro s rest ha hh
  have next : step s = .next (State.resetEvent { s with host := rest }) :=
    (step_of_acceptable_none ha).trans (hostStep_reset hh)
  have slots_length := State.resetWith_slots_length s.slots.length
  have slots_blank := State.resetWith_slots_blank s.slots.length
  exact ⟨_, next, rfl, rfl, slots_length, slots_blank, rfl, rfl, rfl, rfl, rfl, rfl, rfl, rfl, rfl⟩

end Sys2Proof.Machine
end
